-- ==== Sys2Proof/Word.lean ====
section
/-! DEFINITION. The words and index types of the J824: bytes, 16- and 32-bit values, and the numbers of groups,
circuits, demand lines and contacts (00_scope.md, Numbering of things on the junction). -/

namespace Sys2Proof

/-- One byte of a frame or of the table space. -/
abbrev Byte := BitVec 8
/-- A 16-bit value: an address of the table space, a set of sixteen members, a check. -/
abbrev Half := BitVec 16
/-- A 32-bit value: the cabinet clock, the half-cycle count. -/
abbrev Word := BitVec 32

/-- Signal groups A to H are 0 to 7. -/
abbrev GroupId := Fin 8
/-- Lamp circuits C0 to C23; core n belongs to circuit Cn. -/
abbrev CircuitId := Fin 24
/-- Demand lines D0 to D15. -/
abbrev LineId := Fin 16
/-- Local contacts K0 to K7; Kn appears as line D(8+n). -/
abbrev ContactId := Fin 8

/-- Two bytes, most significant first (ch11). -/
def halfOf (hi lo : Byte) : Half := hi ++ lo

/-- Four bytes, most significant first (ch11). -/
def wordOf (a b c d : Byte) : Word := a ++ b ++ c ++ d

/-- The top byte of a 16-bit value. -/
def hiByte (h : Half) : Byte := h.extractLsb' 8 8
/-- The bottom byte of a 16-bit value. -/
def loByte (h : Half) : Byte := h.extractLsb' 0 8

/-- The four bytes of a 32-bit value, most significant first. -/
def wordBytes (w : Word) : List Byte :=
  [w.extractLsb' 24 8, w.extractLsb' 16 8, w.extractLsb' 8 8, w.extractLsb' 0 8]

end Sys2Proof
end

