-- ==== Sys2Proof/Syntax.lean ====
section
/-! DEFINITION. The commands of the J824: one constructor for each row of spec/opcode_table.json. -/

namespace Sys2Proof

/-- The header of a frame but for its kind and length (R179). -/
structure Env where
  flags : Byte
  dest : Byte
  src : Byte
  seq : Byte
  tally : Byte
deriving DecidableEq, Repr

/-- What a command on a pin's level carries: the time that passes before it (log 1), and the time for which the level is held, in µs. -/
structure PinTime where
  dt : Nat
  held : Nat
deriving DecidableEq, Repr

/-- One command, in the order of spec/opcode_table.json. `dt` is the time in microseconds that passes before the command
(log 1). A frame command (echo to time) is the arrival of one good frame (log 6): `e` is its header, `payload` its payload,
`args` the payload after the CALL command code, `v` or `w` what its LOAD writes to the control (log 7). The `held` of
POWER_ON_RESET is how long RESET stays low from its instant, 0 for a supply that rises from off (log 14), that of DRIVE_EN_FALL and
DRIVE_EN_RISE how long the new level has lasted at their instant (log 38). -/
inductive Instr where
  | powerOnReset (p : PinTime)
  | resetEnd (dt : Nat) (ident : BitVec 4) (bench driveEn : Bool)
  | stationResetCarriedOut (dt : Nat)
  | keepAliveMark (dt : Nat)
  | markEnd (dt : Nat)
  | validMark (dt width : Nat)
  | invertedMark (dt width : Nat)
  | startMarker (dt : Nat)
  | invertedStartMarker (dt : Nat)
  | dataByte (dt : Nat) (b : Byte)
  | invalidLineSymbol (dt : Nat)
  | discardingSilence (dt : Nat)
  | seekingTimeout (dt : Nat)
  | silenceWatchdog (dt : Nat)
  | endMarker (dt : Nat)
  | transmissionStart (dt : Nat)
  | transmissionEnd (dt : Nat)
  | insertionAttempt (dt : Nat)
  | echo (dt : Nat) (e : Env) (payload : List Byte)
  | peek (dt : Nat) (e : Env) (payload : List Byte)
  | load (dt : Nat) (e : Env) (payload : List Byte)
  | commit (dt : Nat) (e : Env) (v : Byte)
  | retire (dt : Nat) (e : Env) (v : Byte)
  | clearCounters (dt : Nat) (e : Env) (v : Byte)
  | stageFlagClear (dt : Nat) (e : Env) (w : Half)
  | mgmtStatusClear (dt : Nat) (e : Env) (v : Byte)
  | clearProving (dt : Nat) (e : Env) (v : Byte)
  | coreRetest (dt : Nat) (e : Env) (v : Byte)
  | stationReset (dt : Nat) (e : Env) (v : Byte)
  | protection (dt : Nat) (e : Env) (w : Half)
  | imageWriteEnd (dt : Nat)
  | maskWriteEnd (dt : Nat)
  | contactSample (dt : Nat) (levels : Byte)
  | heldExtension (dt : Nat) (k : ContactId)
  | callDemand (dt : Nat) (e : Env) (args : List Byte)
  | plan (dt : Nat) (e : Env) (args : List Byte)
  | force (dt : Nat) (e : Env) (args : List Byte)
  | hold (dt : Nat) (e : Env) (args : List Byte)
  | release (dt : Nat) (e : Env) (args : List Byte)
  | allRed (dt : Nat) (e : Env) (args : List Byte)
  | resume (dt : Nat) (e : Env) (args : List Byte)
  | flash (dt : Nat) (e : Env) (args : List Byte)
  | dark (dt : Nat) (e : Env) (args : List Byte)
  | time (dt : Nat) (e : Env) (args : List Byte)
  | cabinetClockTick (dt : Nat)
  | supervisionExpiry (dt : Nat)
  | startRedExpiry (dt : Nat)
  | minExpiry (dt : Nat)
  | extensionDeadline (dt : Nat)
  | stall (dt : Nat)
  | redAmberDue (dt : Nat) (g : GroupId)
  | earliestGreenDue (dt : Nat) (g : GroupId)
  | redAmberExpiry (dt : Nat) (g : GroupId)
  | amberExpiry (dt : Nat) (g : GroupId)
  | clearanceExpiry (dt : Nat) (g : GroupId)
  | halfCycleMark (dt : Nat) (values : Vector Nat 24)
  | flashPhaseEdge (dt : Nat)
  | driveEnFall (p : PinTime)
  | driveEnRise (p : PinTime)
  | mainsLost (dt : Nat)
  | probeRequest (dt : Nat) (n : CircuitId)
  | probeReturn (dt : Nat) (n : CircuitId) (amplitude width : Nat)
  | leakageTestStart (dt : Nat)
  | leakageResult (dt : Nat) (current : Nat)
  | failRedExpiry (dt : Nat)
deriving DecidableEq, Repr

/-- The time that passes before a command. -/
def Instr.dt : Instr → Nat
  | .powerOnReset p | .driveEnFall p | .driveEnRise p => p.dt
  | .resetEnd d _ _ _ | .stationResetCarriedOut d | .keepAliveMark d | .markEnd d
  | .validMark d _ | .invertedMark d _ | .startMarker d | .invertedStartMarker d | .dataByte d _
  | .invalidLineSymbol d | .discardingSilence d | .seekingTimeout d | .silenceWatchdog d | .endMarker d
  | .transmissionStart d | .transmissionEnd d | .insertionAttempt d | .echo d _ _ | .peek d _ _ | .load d _ _
  | .commit d _ _ | .retire d _ _ | .clearCounters d _ _ | .stageFlagClear d _ _ | .mgmtStatusClear d _ _
  | .clearProving d _ _ | .coreRetest d _ _ | .stationReset d _ _ | .protection d _ _ | .imageWriteEnd d
  | .maskWriteEnd d | .contactSample d _ | .heldExtension d _ | .callDemand d _ _ | .plan d _ _ | .force d _ _
  | .hold d _ _ | .release d _ _ | .allRed d _ _ | .resume d _ _ | .flash d _ _ | .dark d _ _ | .time d _ _
  | .cabinetClockTick d | .supervisionExpiry d | .startRedExpiry d | .minExpiry d | .extensionDeadline d
  | .stall d | .redAmberDue d _ | .earliestGreenDue d _ | .redAmberExpiry d _ | .amberExpiry d _
  | .clearanceExpiry d _ | .halfCycleMark d _ | .flashPhaseEdge d
  | .mainsLost d | .probeRequest d _ | .probeReturn d _ _ _ | .leakageTestStart d | .leakageResult d _
  | .failRedExpiry d => d

end Sys2Proof
end

