-- ==== Sys2Proof/Decode.lean ====
section
/-! DEFINITION. The reading of a table word. spec/opcode_table.json gives no row any bits (98_reader.md: every row has no
fixed bits and no fields), so no word spells a command. -/

namespace Sys2Proof

/-- The command that a word spells by the bits of spec/opcode_table.json: none, since no row has bits. -/
def decodeTableWord (nbits w : Nat) : Option Instr :=
  match nbits, w with
  | _, _ => none

end Sys2Proof
end

