-- ==== Sys2Proof/Machine/State.lean ====
section
/-! DEFINITION. The state of the J824, block by block (00_scope.md, Block diagram), and the state right after reset. -/

namespace Sys2Proof.Machine

/-- No command of the manual stops the part, so no meaning faults: the type has no constructor. -/
inductive Fault where
deriving DecidableEq, Repr

/-- Why a command has no meaning. -/
inductive Refusal where
  /-- Raised by an arm of exec alone, for a row of the table that has no meaning yet; safe. -/
  | notModelled (mnemonic : String)
deriving DecidableEq, Repr

/-! ### Names of values -/

/-- In-port line state (R4). -/
inductive LineState where
  | down | seeking | up
deriving DecidableEq, Repr

/-- Receive polarity (R4). -/
inductive Polarity where
  | normal | inverted
deriving DecidableEq, Repr

/-- Junction mode (R100). -/
inductive JunctionMode where
  | dark | start | run | allRed | failRed | flash
deriving DecidableEq, Repr

/-- Control source (R100). -/
inductive ControlSource where
  | isolated | supervised
deriving DecidableEq, Repr

/-- Step state (R100). -/
inductive StepState where
  | none | enter | min | extend | rest
deriving DecidableEq, Repr

/-- Force state (R100). -/
inductive ForceState where
  | none | forced | released
deriving DecidableEq, Repr

/-- Transfer state (R70). -/
inductive TransferState where
  | none | awaiting | clearing
deriving DecidableEq, Repr

/-- Kind of a signal group (R75). -/
inductive GroupKind where
  | unused | vehicle | pedestrian
deriving DecidableEq, Repr

/-- What a group shows (R77, R78). -/
inductive Aspect where
  | dark | red | redAmber | green | amber | greenFlash | flashAmber
deriving DecidableEq, Repr

/-- Group red status (R137). -/
inductive RedStatus where
  | unproven | proven | lost
deriving DecidableEq, Repr

/-- Mains state (R125). -/
inductive MainsState where
  | present | lost
deriving DecidableEq, Repr

/-- Proving state of a circuit (R127). -/
inductive ProvingState where
  | unproven | proven | dim | failed | shorted | notProvable | disabled
deriving DecidableEq, Repr

/-- State of a field cable core (R140); `opened` is the manual's OPEN. -/
inductive CoreState where
  | untested | sound | suspect | opened | crossFeed | leaky
deriving DecidableEq, Repr

/-- Fallback cause (R161). -/
inductive Cause where
  | none | conflict | redLoss | stall | commanded | driveOff | configEmpty
deriving DecidableEq, Repr

/-- Activation state (R56). -/
inductive Activation where
  | none | pending
deriving DecidableEq, Repr

/-- Alarm codes 1 to 16 in order (10.1). -/
inductive AlarmCode where
  | lampFailed | lampDim | lampOverload | lampShort | redLost | coreOpen | coreCrossFeed | coreLeaky
  | conflict | stall | supervisionLost | lineDown | mainsLost | configEmpty | driveOff | fallback
deriving DecidableEq, Repr

/-- Whether a reset is in progress and of which kind, with the instant in µs that its last 10 ms count from: RESET's return
high for a power-on reset (R181), the instant it is carried out for a station reset (R58). -/
inductive ResetPhase where
  | notInReset
  | powerOn (released : Nat)
  | station (since : Nat)
deriving DecidableEq, Repr

/-- A timer on the aspect time base: loaded with `load` ds, due at time base value `due` (R76). -/
structure Timer where
  load : Nat
  due : Nat
deriving DecidableEq, Repr

/-! ### Frames and the Ring Port Unit -/

/-- A good frame: header and payload. Its length byte is the payload's length, its check is computed (R12, R179). -/
structure Frame where
  kind : Byte
  flags : Byte
  dest : Byte
  src : Byte
  seq : Byte
  tally : Byte
  payload : List Byte
deriving DecidableEq, Repr

/-- A frame in the transit queue, and whether it is the frame that carried a TAKEN STATION_RESET (R15, R57). -/
structure QueuedFrame where
  frame : Frame
  carriesReset : Bool
deriving DecidableEq, Repr

/-- What RING IN is doing: waiting for a frame, collecting one, or discarding after OVERLONG (R11, R13). -/
inductive Reception where
  | waiting
  | collecting (bytes : List Byte) (badSymbol : Bool)
  | discarding (lastSymbol : Nat)
deriving DecidableEq, Repr

/-- A symbol on a hop of the ring (1.1); a mark with the width of its pulse in nanoseconds (R1). -/
inductive SymbolKind where
  | startMarker
  | data (value : Byte)
  | endMarker
  | mark (pulse : Nat)
deriving DecidableEq, Repr

/-- A symbol in the sense in which it is sent (1.1). -/
structure LineSymbol where
  sense : Polarity
  kind : SymbolKind
deriving DecidableEq, Repr

/-- What RING OUT is doing (R2): a frame or a mark ends at the instant `ends`. `State.ringOut` gives the symbol that is then on the line,
its sense and the width of a mark's pulse (R1). -/
inductive OutPort where
  | idle
  | frame (sent : Frame) (check : Half) (carriesReset : Bool) (ends : Nat)
  | mark (ends : Nat)
deriving DecidableEq, Repr

/-- An own NOTICE frame with its deferral count (1.6). -/
structure InsertionEntry where
  frame : Frame
  deferrals : Nat
deriving DecidableEq, Repr

/-- The line record (R4); instants in µs. -/
structure LineRecord where
  state : LineState
  polarity : Polarity
  markRun : Nat
  lastMark : Option Nat
  goodFrames : Nat
  invertedMarks : Nat
  lastActivity : Nat
deriving DecidableEq, Repr

/-- The nine ring counters (R24). -/
structure RingCounters where
  runt : Byte
  overlong : Byte
  lengthBad : Byte
  crcBad : Byte
  symbolBad : Byte
  transitOverrun : Byte
  insertAbandoned : Byte
  noticeLost : Byte
  echoMismatch : Byte
deriving DecidableEq, Repr

/-- The Ring Port Unit with its insertion queue (ch1). `idleSince` is the start of the keep-alive mark timer, `nextAttempt`
the instant of the head's next insertion attempt, `draws` the number of backoff draws made (log 8). -/
structure RingPort where
  line : LineRecord
  reception : Reception
  transit : List QueuedFrame
  out : OutPort
  idleSince : Nat
  insertion : List InsertionEntry
  nextAttempt : Option Nat
  insertionSeq : Byte
  draws : Nat
  counters : RingCounters
deriving DecidableEq, Repr

/-- The four classification counters (R35). -/
structure ClassifierCounters where
  stripped : Byte
  tallyExpired : Byte
  blocked : Byte
  refusedCall : Byte
deriving DecidableEq, Repr

/-! ### Configurations, store and Management Unit -/

/-- A byte memory: (offset, byte) pairs, offsets strictly rising, no byte 0; an offset not listed reads 0 (R73). -/
abbrev Memory := List Host.Cell

/-- A configuration as the blocks read it: none is the EMPTY configuration (R60). -/
abbrev Cfg := Option Memory

/-- Store state: IDLE, writing the image (with a mask write to follow or not), or writing the mask (R66, R67). -/
inductive Store where
  | idle
  | image (since : Nat) (maskNext : Bool)
  | mask (since : Nat)
deriving DecidableEq, Repr

/-- The station reset item of the management status (R56, R57): TAKEN holds whether the carrying frame has been sent. -/
inductive StationReset where
  | none
  | taken (carrierSent : Bool)
deriving DecidableEq, Repr

/-- The non-volatile store (4.3): the image region and the mask region. -/
structure NonVolatile where
  imageMarker : Bool
  imageCheckMatches : Bool
  image : Memory
  maskMarker : Bool
  maskWord : Half
deriving DecidableEq, Repr

/-- The Management Unit (ch3): configurations, protection mask, management status, the straps as sampled. -/
structure Management where
  staging : Memory
  active : Cfg
  mask : Half
  protectedWrite : Bool
  protectClearRefused : Bool
  store : Store
  activation : Activation
  stationReset : StationReset
  checkCode : Byte
  checkSubject : Byte
  bench : Bool
  ident : BitVec 4
deriving DecidableEq, Repr

/-! ### Demand Unit and Junction Sequencer -/

/-- Debounce record of a contact (R37); the level of line D(8+n) is ACTIVE while `closed`. -/
structure Contact where
  closed : Bool
  changes : Nat
deriving DecidableEq, Repr

/-- The Demand Unit (ch2): contacts, the next sample instant (µs), the demand register, and for each of D8 to D15 the
instant (µs) of its next held-extension event. -/
structure Demand where
  contacts : Vector Contact 8
  nextSample : Nat
  register : Half
  held : Vector (Option Nat) 8
deriving DecidableEq, Repr

/-- The sequencer record (R100) with the transfer state (R70) and the cabinet clock (R122). `switchKept` tells that a pending plan
was set in a rest under HOLD: its plan switch is taken when HOLD becomes no (R109). -/
structure Sequencer where
  mode : JunctionMode
  control : ControlSource
  currentPlan : Nat
  supervisedPlan : Nat
  pendingPlan : Option Nat
  isolatedSwitch : Bool
  switchKept : Bool
  pointer : Nat
  step : StepState
  stage : Option Nat
  stepStart : Option Nat
  minExpiry : Option Nat
  deadline : Option Nat
  pendingForce : Option Nat
  force : ForceState
  hold : Bool
  resumeStep : Option Nat
  startRed : Option Timer
  supervision : Option Nat
  transfer : TransferState
  clock : Word
  clockSince : Nat
deriving DecidableEq, Repr

/-! ### Lamp side -/

/-- A group record (R75); instants on the aspect time base. -/
structure Group where
  kind : GroupKind
  aspect : Aspect
  timer : Option Timer
  gain : Option Nat
  greenEnd : Nat
  withheld : Bool
  withheldSince : Option Nat
  redStatus : RedStatus
  evidence : Bool
deriving DecidableEq, Repr

/-- How a circuit stood before it was switched at once in a loss of mains, and the instant (µs) of the switch. The model's own: a mark at
that same instant takes the switch back and applies the change itself (R126, log 43). -/
structure Standing where
  instant : Nat
  applied : Bool
  changedAt : Word
  offSince : Nat
deriving DecidableEq, Repr

/-- A drive record (R92); its commanded state is computed (log 12). `before` is the model's own (R126, log 43). -/
structure DriveRecord where
  applied : Bool
  changedAt : Word
  lockout : Bool
  before : Option Standing
deriving DecidableEq, Repr

/-- The DRIVE_EN pin: its present level, the instant (µs) from which it has had it, and the last instant at which it was known
(R181). -/
structure DriveEnPin where
  level : Bool
  since : Nat
  seen : Nat
deriving DecidableEq, Repr

/-- The Drive Unit (ch5): drive records, half-cycle count, flash phase and its last edge (µs), the level of DRIVE_EN as its edge
events leave it, and the pin itself (R181). -/
structure Drive where
  records : Vector DriveRecord 24
  halfCycles : Word
  flashOn : Bool
  flashSince : Nat
  driveEn : Bool
  pin : DriveEnPin
deriving DecidableEq, Repr

/-- The Sense Scanner (R125, R126, R151): instants in µs. -/
structure Scanner where
  mains : MainsState
  lastMark : Nat
  blankSets : Nat
  leakTest : Option (CircuitId × Nat)
deriving DecidableEq, Repr

/-- A circuit proving record (R127). -/
structure ProvingRecord where
  state : ProvingState
  fail : Byte
  dim : Byte
  good : Byte
  high : Byte
  overloaded : Bool
  lastCurrent : Nat
deriving DecidableEq, Repr

/-- A core record (R140). `probe` is the instant (µs) of the request of the probe in flight. -/
structure CoreRecord where
  state : CoreState
  valid : Byte
  miss : Byte
  missTotal : Byte
  cross : Nat
  quiet : Nat
  leak : Nat
  cleanLeak : Nat
  probe : Option Nat
  lastAmplitude : Nat
  lastWidth : Nat
  lastLeakage : Nat
  offSince : Nat
  lastProbe : Option Nat
  lastLeakTest : Option Nat
deriving DecidableEq, Repr

/-- The Cable Monitor (ch8). -/
structure Cable where
  cores : Vector CoreRecord 24
  leakPointer : CircuitId
deriving DecidableEq, Repr

/-! ### Fallback and alarms -/

/-- A fallback cause with its subject and time (R161). -/
structure CauseRecord where
  cause : Cause
  subject : Byte
  time : Word
deriving DecidableEq, Repr

/-- The fail-red timer (R164). -/
inductive FailRed where
  | none
  | waiting
  | running (t : Timer)
deriving DecidableEq, Repr

/-- The Conflict Monitor's latch, the pair subjects that it has detected and whose evidence on both sides lasts (R158), and the
Fallback Controller's records (ch9). -/
structure Fallback where
  latch : Bool
  detected : List Byte
  cause : CauseRecord
  last : CauseRecord
  failRed : FailRed
deriving DecidableEq, Repr

/-- An entry of the alarm list (R168); `active` is ACTIVE, not active CLEARED. -/
structure AlarmEntry where
  code : AlarmCode
  subject : Byte
  active : Bool
  firstRaised : Word
  lastChange : Word
  occurrences : Byte
  notified : Bool
deriving DecidableEq, Repr

/-- The Alarm Unit (ch10). -/
structure Alarms where
  list : List AlarmEntry
  lost : Byte
  overflow : Bool
  stageEnd : Half
deriving DecidableEq, Repr

/-! ### The machine -/

/-- The J824. `now` and `resetEnd` are instants in µs (log 1); `pending` is the queue of commands that wait. -/
structure State where
  now : Nat
  resetEnd : Nat
  phase : ResetPhase
  ring : RingPort
  classifier : ClassifierCounters
  mgmt : Management
  nv : NonVolatile
  demand : Demand
  seq : Sequencer
  groups : Vector Group 8
  drive : Drive
  scanner : Scanner
  circuits : Vector ProvingRecord 24
  cable : Cable
  fallback : Fallback
  alarms : Alarms
  pending : List Instr
deriving DecidableEq, Repr

/-! ### Reset -/

/-- An alarm entry made and notified at the end of the power-on reset, when the cabinet clock is 0 (R169, R172). -/
def AlarmEntry.atReset (c : AlarmCode) : AlarmEntry :=
  { code := c, subject := 255, active := true, firstRaised := 0, lastChange := 0, occurrences := 1, notified := true }

/-- The ASSERT notice of such an entry: code, subject 255, clock 0, occurrences 1 (R18, R175, R179). -/
def InsertionEntry.atReset (own seq code : Byte) : InsertionEntry :=
  { frame := { kind := 0x05, flags := 0, dest := 0x01, src := own, seq := seq, tally := 0,
               payload := [1, code, 255, 0, 0, 0, 0, 1] },
    deferrals := 0 }

/-- The J824 right after a power-on reset with every strap low and a store that holds nothing (log 9): the configuration
is EMPTY and the junction DARK (R73); LINE_DOWN, CONFIG_EMPTY and DRIVE_OFF have been raised, in that order, and their
notices wait (R172). -/
def State.reset : State :=
  { now := 0, resetEnd := 0, phase := .notInReset,
    ring :=
      { line := { state := .down, polarity := .normal, markRun := 0, lastMark := none, goodFrames := 0,
                  invertedMarks := 0, lastActivity := 0 },
        reception := .waiting, transit := [], out := .idle, idleSince := 0,
        insertion := [InsertionEntry.atReset 0x40 0 12, InsertionEntry.atReset 0x40 1 14, InsertionEntry.atReset 0x40 2 15],
        nextAttempt := some 0, insertionSeq := 3, draws := 0,
        counters := { runt := 0, overlong := 0, lengthBad := 0, crcBad := 0, symbolBad := 0, transitOverrun := 0,
                      insertAbandoned := 0, noticeLost := 0, echoMismatch := 0 } },
    classifier := { stripped := 0, tallyExpired := 0, blocked := 0, refusedCall := 0 },
    mgmt :=
      { staging := [], active := none, mask := 0, protectedWrite := false, protectClearRefused := false,
        store := .idle, activation := .none, stationReset := .none, checkCode := 0, checkSubject := 255,
        bench := false, ident := 0 },
    nv := { imageMarker := false, imageCheckMatches := false, image := [], maskMarker := false, maskWord := 0 },
    demand := { contacts := Vector.replicate 8 { closed := false, changes := 0 }, nextSample := 10000, register := 0,
                held := Vector.replicate 8 none },
    seq :=
      { mode := .dark, control := .isolated, currentPlan := 0, supervisedPlan := 0, pendingPlan := none,
        isolatedSwitch := false, switchKept := false, pointer := 0, step := .none, stage := none, stepStart := none,
        minExpiry := none, deadline := none, pendingForce := none, force := .none, hold := false, resumeStep := none, startRed := none,
        supervision := none, transfer := .none, clock := 0, clockSince := 0 },
    groups := Vector.replicate 8
      { kind := .unused, aspect := .dark, timer := none, gain := none, greenEnd := 0, withheld := false,
        withheldSince := none, redStatus := .unproven, evidence := false },
    drive := { records := Vector.replicate 24 { applied := false, changedAt := 0, lockout := false, before := none },
               halfCycles := 0, flashOn := true, flashSince := 0, driveEn := false,
               pin := { level := false, since := 0, seen := 0 } },
    scanner := { mains := .present, lastMark := 0, blankSets := 0, leakTest := none },
    circuits := Vector.replicate 24
      { state := .disabled, fail := 0, dim := 0, good := 0, high := 0, overloaded := false, lastCurrent := 0 },
    cable :=
      { cores := Vector.replicate 24
          { state := .untested, valid := 0, miss := 0, missTotal := 0, cross := 0, quiet := 0, leak := 0, cleanLeak := 0,
            probe := none, lastAmplitude := 0, lastWidth := 0, lastLeakage := 0, offSince := 0, lastProbe := none,
            lastLeakTest := none },
        leakPointer := 0 },
    fallback := { latch := false, detected := [], cause := { cause := .configEmpty, subject := 255, time := 0 },
                  last := { cause := .none, subject := 255, time := 0 }, failRed := .none },
    alarms := { list := [AlarmEntry.atReset .lineDown, AlarmEntry.atReset .configEmpty, AlarmEntry.atReset .driveOff],
                lost := 0, overflow := false, stageEnd := 0 },
    pending := [] }

end Sys2Proof.Machine
end

