-- ==== Sys2Proof/Machine/Ops.lean ====
section
/-! DEFINITION. The named operations under every meaning: time, counters, the byte memory, the records, and the frame in
which a command runs (`live`). -/

namespace Sys2Proof.Machine

/-! ### Counters and index lists -/

/-- An 8-bit counter saturates at 255 (00_scope.md, Counters). -/
def satInc (b : Byte) : Byte := if b = 255 then 255 else b + 1

/-- Groups A to H in order. -/
def groupIds : List GroupId := [0, 1, 2, 3, 4, 5, 6, 7]

/-- Circuits C0 to C23 in order. -/
def circuitIds : List CircuitId :=
  [0, 1, 2, 3, 4, 5, 6, 7, 8, 9, 10, 11, 12, 13, 14, 15, 16, 17, 18, 19, 20, 21, 22, 23]

/-- Demand lines D0 to D15 in order. -/
def lineIds : List LineId := [0, 1, 2, 3, 4, 5, 6, 7, 8, 9, 10, 11, 12, 13, 14, 15]

/-- Contacts K0 to K7 in order. -/
def contactIds : List ContactId := [0, 1, 2, 3, 4, 5, 6, 7]

/-- Line D(8+n) of contact Kn (R36). -/
def contactLine (k : ContactId) : LineId := ⟨k.val + 8, by omega⟩

/-! ### Time -/

/-- Time passes (log 1). -/
def elapse (dt : Nat) (s : State) : State := { s with now := s.now + dt }

/-- A decisecond in microseconds. -/
def dsMicros : Nat := 100000

/-- The aspect time base: deciseconds since the end of the last reset (R76, log 11). -/
def State.timeBase (s : State) : Nat := (s.now - s.resetEnd) / dsMicros

/-- An instant as the time base records it: its value at the first decisecond step at or after now (R76). -/
def State.stamp (s : State) : Nat := (s.now - s.resetEnd + (dsMicros - 1)) / dsMicros

/-- A stored instant as it reads now: it never falls more than 65535 ds behind the time base (R76, log 11). -/
def State.seen (s : State) (x : Nat) : Nat := max x (s.timeBase - 65535)

/-- A timer loaded with n ds at this instant (R76). -/
def State.loadTimer (s : State) (n : Nat) : Timer := { load := n, due := s.stamp + n }

/-- A timer has fallen due (R76: at the time base step that reaches it). -/
def State.timerDue (s : State) (t : Option Timer) : Bool :=
  match t with
  | none => false
  | some t => t.due ≤ s.timeBase

/-- Deciseconds left on a timer: it counts down with the time base from the value it was loaded with (R76, log 27). -/
def State.timerLeft (s : State) (t : Timer) : Nat := min t.load (t.due - s.timeBase)

/-- An instant of the time base has been reached. -/
def State.reached (s : State) (x : Option Nat) : Bool :=
  match x with
  | none => false
  | some x => x ≤ s.timeBase

/-! ### The frame of a command -/

/-- A command's step: its time passes, then it acts, unless a reset is in progress: then the inputs are not acted on (R181,
log 13). -/
def live (dt : Nat) (f : State → State) (s : State) : Host.Outcome State Fault Refusal :=
  let t := elapse dt s
  match t.phase with
  | .notInReset => .next (f t)
  | .powerOn _ => .next t
  | .station _ => .next t

/-! ### Byte memory -/

/-- The byte at an offset; an offset not listed reads 0 (R73). -/
def Memory.read : Memory → Nat → Byte
  | [], _ => 0
  | (a, b) :: m, k => if a = k then b else Memory.read m k

/-- Write a byte, keeping the canonical form: a byte 0 is not listed. -/
def Memory.write : Memory → Nat → Byte → Memory
  | [], k, v => if v = 0 then [] else [(k, v)]
  | (a, b) :: m, k, v =>
    if k < a then (if v = 0 then (a, b) :: m else (k, v) :: (a, b) :: m)
    else if k = a then (if v = 0 then m else (k, v) :: m)
    else (a, b) :: Memory.write m k v

/-- Write bytes at successive offsets. -/
def Memory.writeMany (m : Memory) (k : Nat) : List Byte → Memory
  | [] => m
  | v :: vs => Memory.writeMany (Memory.write m k v) (k + 1) vs

/-- Every offset listed in `m` is above `k`. -/
def Memory.above (k : Nat) (m : Memory) : Bool := m.all (fun c => decide (k < c.1))

/-- The canonical form: offsets strictly rising, no byte 0. -/
def Memory.wf : Memory → Bool
  | [] => true
  | (a, b) :: m => b ≠ 0 && Memory.above a m && Memory.wf m

/-! ### Records -/

/-- Replace a group record. -/
def State.setGroup (s : State) (g : GroupId) (x : Group) : State := { s with groups := s.groups.set g.val x }

/-- Replace a circuit proving record. -/
def State.setCircuit (s : State) (n : CircuitId) (r : ProvingRecord) : State :=
  { s with circuits := s.circuits.set n.val r }

/-- Replace a core record. -/
def State.setCore (s : State) (n : CircuitId) (r : CoreRecord) : State :=
  { s with cable := { s.cable with cores := s.cable.cores.set n.val r } }

/-- Replace a drive record. -/
def State.setDrive (s : State) (n : CircuitId) (r : DriveRecord) : State :=
  { s with drive := { s.drive with records := s.drive.records.set n.val r } }

/-- Member n of a set of sixteen (ch11: bit n names member n). -/
def setHas (w : Half) (n : Nat) : Bool := w.getLsbD n

/-- A set of sixteen with member n added. -/
def setAdd (w : Half) (n : Nat) : Half := w ||| ((1 : Half) <<< n)

/-- A set of sixteen with member n removed. -/
def setRemove (w : Half) (n : Nat) : Half := w &&& ~~~((1 : Half) <<< n)

/-- The junction is in normal control (6.3). -/
def JunctionMode.normal : JunctionMode → Bool
  | .start | .run | .allRed => true
  | .dark | .failRed | .flash => false

/-- A group in one of these aspects is in right of way (00_scope.md). -/
def Aspect.rightOfWay : Aspect → Bool
  | .green | .greenFlash => true
  | .dark | .red | .redAmber | .amber | .flashAmber => false

end Sys2Proof.Machine
end

