-- ==== Sys2Proof/Machine/Operands.lean ====
section
/-! DEFINITION. The operand forms: frames and their checks (R12, R179), verdicts, the frames of the frame commands, LOAD
and PEEK payloads, demand words, notice payloads, and the encodings a PEEK shows (ch11). -/

namespace Sys2Proof.Machine

/-! ### Frame kinds and verdicts -/

def kindCall : Byte := 0x01
def kindDemand : Byte := 0x02
def kindLoad : Byte := 0x03
def kindPeek : Byte := 0x04
def kindNotice : Byte := 0x05
def kindEcho : Byte := 0x06

/-- BROADCAST (00_scope.md, Identities on the ring). -/
def broadcast : Byte := 0xFF

/-- The verdicts the J824 writes (1.4). -/
inductive Verdict where
  | taken | protectedBlock | busy | range | invalid | refused
deriving DecidableEq, Repr

/-- The value of a verdict (1.4); OPEN is 0. -/
def Verdict.code : Verdict → Byte
  | .taken => 1 | .protectedBlock => 2 | .busy => 3 | .range => 4 | .invalid => 5 | .refused => 6

/-- The verdict field of a frame (R179: bits 2 to 0 of the flags). -/
def Frame.verdictField (f : Frame) : Byte := f.flags &&& 0x07

/-- The frame is not yet answered (verdict OPEN). -/
def Frame.isOpen (f : Frame) : Bool := f.verdictField = 0

/-- Write a verdict; bits 7 to 3 of the flags stay as they arrived (R179). -/
def Frame.answer (f : Frame) (v : Verdict) : Frame := { f with flags := (f.flags &&& 0xF8) ||| v.code }

/-! ### Bytes and check -/

/-- One bit shifted through the remainder register of x^16 + x^12 + x^5 + 1 (R12). -/
def crcBit (r : Half) (bit : Bool) : Half :=
  if r.msb ^^ bit then (r <<< 1) ^^^ 0x1021 else r <<< 1

/-- One byte, most significant bit first (R12). -/
def crcByte (r : Half) (b : Byte) : Half :=
  [7, 6, 5, 4, 3, 2, 1, 0].foldl (fun r i => crcBit r (b.getLsbD i)) r

/-- The check over header and payload: the register starts at all ones, no final inversion (R12). -/
def crc (bytes : List Byte) : Half := bytes.foldl crcByte 0xFFFF

/-- Header and payload of a frame in order (11.1). -/
def Frame.body (f : Frame) : List Byte :=
  [f.kind, f.flags, f.dest, f.src, f.seq, f.tally, BitVec.ofNat 8 f.payload.length] ++ f.payload

/-- The check of a frame (R12). -/
def Frame.check (f : Frame) : Half := crc f.body

/-- The bytes of a whole frame, the check high byte first (R12). -/
def Frame.bytes (f : Frame) : List Byte := f.body ++ [hiByte f.check, loByte f.check]

/-- Time on the line: n + 2 byte times of 8 µs, n counting header, payload and check (R1). -/
def Frame.lineMicros (f : Frame) : Nat := (f.payload.length + 9 + 2) * 8

/-- The frame that collected bytes hold, the two check bytes left out; none when there are too few for a header. -/
def parseFrame : List Byte → Option Frame
  | k :: fl :: d :: sr :: sq :: t :: _ :: rest =>
    some { kind := k, flags := fl, dest := d, src := sr, seq := sq, tally := t, payload := rest.take (rest.length - 2) }
  | _ => none

/-! ### The frames of the frame commands (log 6, log 7) -/

/-- A frame of a kind with a command's header and payload. -/
def envFrame (kind : Byte) (e : Env) (payload : List Byte) : Frame :=
  { kind := kind, flags := e.flags, dest := e.dest, src := e.src, seq := e.seq, tally := e.tally, payload := payload }

/-- The LOAD frame that writes data at an address. -/
def loadFrame (e : Env) (address : Half) (data : List Byte) : Frame :=
  envFrame kindLoad e (hiByte address :: loByte address :: BitVec.ofNat 8 data.length :: data)

/-- The CALL frame of a command code with its argument bytes. -/
def callFrame (e : Env) (code : Byte) (args : List Byte) : Frame := envFrame kindCall e (code :: args)

/-! ### LOAD and PEEK payloads -/

/-- A span of the table space (R43). -/
structure Span where
  start : Nat
  count : Nat
deriving DecidableEq, Repr

/-- The span covers an address. -/
def Span.covers (p : Span) (a : Nat) : Bool := p.start ≤ a && a < p.start + p.count

/-- Start address, count and the bytes after them; none unless the payload length is 3 + count and the count is 1 to 44
(R44, R46). -/
def parseSpan : List Byte → Option (Span × List Byte)
  | hi :: lo :: n :: data =>
    if data.length = n.toNat ∧ 0 < n.toNat ∧ n.toNat ≤ 44 then
      some ({ start := (halfOf hi lo).toNat, count := n.toNat }, data)
    else none
  | _ => none

/-- The byte that a LOAD carries for an address. -/
def dataAt (p : Span) (data : List Byte) (a : Nat) : Option Byte :=
  if p.covers a then data[a - p.start]? else none

/-! ### CALL command codes (11.1) -/

def callPlan : Byte := 0x01
def callForce : Byte := 0x02
def callHold : Byte := 0x03
def callRelease : Byte := 0x04
def callAllRed : Byte := 0x05
def callFlash : Byte := 0x06
def callDark : Byte := 0x07
def callResume : Byte := 0x08
def callDemandCode : Byte := 0x09
def callTime : Byte := 0x0A

/-! ### Alarm codes and notices (10.1, R175, R179) -/

/-- The value of an alarm code (10.1). -/
def AlarmCode.value : AlarmCode → Byte
  | .lampFailed => 1 | .lampDim => 2 | .lampOverload => 3 | .lampShort => 4 | .redLost => 5 | .coreOpen => 6
  | .coreCrossFeed => 7 | .coreLeaky => 8 | .conflict => 9 | .stall => 10 | .supervisionLost => 11 | .lineDown => 12
  | .mainsLost => 13 | .configEmpty => 14 | .driveOff => 15 | .fallback => 16

/-- The payload of an ASSERT or CLEAR notice for an entry as it stands after the change (R175, R179). -/
def noticePayload (e : AlarmEntry) : List Byte :=
  [if e.active then 1 else 2, e.code.value, e.subject] ++ wordBytes e.lastChange ++ [e.occurrences]

/-- The payload of a STAGE_END notice (R175, R179). -/
def stageEndPayload (flags : Half) (clock : Word) : List Byte :=
  [3, hiByte flags, loByte flags] ++ wordBytes clock

/-! ### Encodings shown by a PEEK (ch11) -/

/-- A flag as a byte. -/
def bitByte (b : Bool) : Byte := if b then 1 else 0

def JunctionMode.value : JunctionMode → Byte
  | .dark => 0 | .start => 1 | .run => 2 | .allRed => 3 | .failRed => 4 | .flash => 5

def ControlSource.value : ControlSource → Byte
  | .isolated => 0 | .supervised => 1

def StepState.value : StepState → Byte
  | .none => 0 | .enter => 1 | .min => 2 | .extend => 3 | .rest => 4

def LineState.value : LineState → Byte
  | .down => 0 | .seeking => 1 | .up => 2

def Polarity.value : Polarity → Byte
  | .normal => 0 | .inverted => 1

def Cause.value : Cause → Byte
  | .none => 0 | .conflict => 1 | .redLoss => 2 | .stall => 3 | .commanded => 4 | .driveOff => 5 | .configEmpty => 6

def GroupKind.value : GroupKind → Byte
  | .unused => 0 | .vehicle => 1 | .pedestrian => 2

def Aspect.value : Aspect → Byte
  | .dark => 0 | .red => 1 | .redAmber => 2 | .green => 3 | .amber => 4 | .greenFlash => 5 | .flashAmber => 6

def RedStatus.value : RedStatus → Byte
  | .unproven => 0 | .proven => 1 | .lost => 2

def ProvingState.value : ProvingState → Byte
  | .unproven => 0 | .proven => 1 | .dim => 2 | .failed => 3 | .shorted => 4 | .notProvable => 5 | .disabled => 6

def CoreState.value : CoreState → Byte
  | .untested => 0 | .sound => 1 | .suspect => 2 | .opened => 3 | .crossFeed => 4 | .leaky => 5

def Store.value : Store → Byte
  | .idle => 0 | .image _ _ => 1 | .mask _ => 1

def Activation.value : Activation → Byte
  | .none => 0 | .pending => 1

def StationReset.value : StationReset → Byte
  | .none => 0 | .taken _ => 1

/-- A number shown in two bytes, saturating at 65535 (ch11). -/
def halfValue (n : Nat) : Half := if n < 65536 then BitVec.ofNat 16 n else 65535

end Sys2Proof.Machine
end

