-- ==== Sys2Proof/Machine/Tables.lean ====
section
/-! DEFINITION. The fields of a configuration (11.4) as the blocks read them, with what each block sees while the active
configuration is EMPTY (R60). Offsets are those of 11.4; block b starts at 256 × b. -/

namespace Sys2Proof.Machine

/-- The byte at an offset of a block; 0 while EMPTY, where no table is held. -/
def cfgByte (c : Cfg) (block off : Nat) : Byte :=
  match c with
  | none => 0
  | some m => Memory.read m (256 * block + off)

/-- Two bytes of a block, most significant first. -/
def cfgHalf (c : Cfg) (block off : Nat) : Half := halfOf (cfgByte c block off) (cfgByte c block (off + 1))

/-- A 16-bit number of a block. -/
def cfgNat (c : Cfg) (block off : Nat) : Nat := (cfgHalf c block off).toNat

/-- The configuration is EMPTY (R60). -/
def cfgEmpty (c : Cfg) : Bool := c.isNone

/-! ### Block 0: general -/

/-- SUPERVISOR_ID, 0x01 while EMPTY (R29, R60). -/
def cfgSupervisorId (c : Cfg) : Byte := if cfgEmpty c then 0x01 else cfgByte c 0 0

/-- Supervision period, s. -/
def cfgSupervisionPeriod (c : Cfg) : Nat := (cfgByte c 0 1).toNat
/-- Start-red time, ds. -/
def cfgStartRed (c : Cfg) : Nat := cfgNat c 0 2
/-- Fail-red time, ds. -/
def cfgFailRed (c : Cfg) : Nat := cfgNat c 0 4
/-- Stall limit, ds. -/
def cfgStallLimit (c : Cfg) : Nat := cfgNat c 0 6
/-- Isolated plan; 0 while EMPTY (R100). -/
def cfgIsolatedPlan (c : Cfg) : Nat := (cfgByte c 0 8).toNat
/-- The red-loss action is FLASH (0); otherwise INTERLOCK_ONLY. -/
def cfgRedLossFlash (c : Cfg) : Bool := cfgByte c 0 9 = 0
/-- The conflict action is DARK (1); otherwise FLASH. -/
def cfgConflictDark (c : Cfg) : Bool := cfgByte c 0 10 = 1
/-- The echo check is ENABLED; disabled while EMPTY (R23, R60). -/
def cfgEchoCheck (c : Cfg) : Bool := cfgByte c 0 11 = 1

/-! ### Blocks 1 and 2: groups and intergreens -/

/-- Group kind; UNUSED while EMPTY (R60). -/
def cfgKind (c : Cfg) (g : GroupId) : GroupKind :=
  let b := cfgByte c 1 g.val
  if b = 1 then .vehicle else if b = 2 then .pedestrian else .unused

/-- Red-amber time, ds. -/
def cfgRedAmber (c : Cfg) (g : GroupId) : Nat := cfgNat c 1 (16 + 6 * g.val)
/-- Amber time, ds. -/
def cfgAmber (c : Cfg) (g : GroupId) : Nat := cfgNat c 1 (16 + 6 * g.val + 2)
/-- Clearance time, ds. -/
def cfgClearance (c : Cfg) (g : GroupId) : Nat := cfgNat c 1 (16 + 6 * g.val + 4)

/-- The conflict matrix entry (i, j). -/
def cfgMarked (c : Cfg) (i j : GroupId) : Bool := (cfgByte c 1 (64 + i.val)).getLsbD j.val

/-- Groups i and j conflict. Of a configuration that passed check 2 the matrix is symmetric and its diagonal false (R62), so
this is the entry (i, j) itself (log 24). -/
def cfgConflicts (c : Cfg) (i j : GroupId) : Bool := decide (i ≠ j) && (cfgMarked c i j || cfgMarked c j i)

/-- IG(i,j), ds. -/
def cfgIntergreen (c : Cfg) (i j : GroupId) : Nat := cfgNat c 2 (16 * i.val + 2 * j.val)

/-! ### Blocks 3 to 7: stages and plans -/

/-- The green set of a stage, bit g for group g. -/
def cfgGreenSet (c : Cfg) (stage : Nat) : Byte := cfgByte c 3 (4 * stage)
/-- Group g is in the green set of a stage. -/
def cfgInStage (c : Cfg) (stage : Nat) (g : GroupId) : Bool := (cfgGreenSet c stage).getLsbD g.val
/-- Forced minimum of a stage, ds. -/
def cfgForcedMin (c : Cfg) (stage : Nat) : Nat := cfgNat c 3 (4 * stage + 2)

/-- Length of a plan: 0 to 16 (R99, R65). -/
def cfgPlanLength (c : Cfg) (plan : Nat) : Nat := min 16 (cfgByte c (4 + plan) 0).toNat
/-- Stage of a plan step. -/
def cfgStepStage (c : Cfg) (plan step : Nat) : Nat := (cfgByte c (4 + plan) (16 + 8 * step)).toNat
/-- The step is served only when its stage is demanded. -/
def cfgStepDemanded (c : Cfg) (plan step : Nat) : Bool := cfgByte c (4 + plan) (16 + 8 * step + 1) = 1
/-- Minimum green of a step, ds. -/
def cfgStepMin (c : Cfg) (plan step : Nat) : Nat := cfgNat c (4 + plan) (16 + 8 * step + 2)
/-- Maximum green of a step, ds. -/
def cfgStepMax (c : Cfg) (plan step : Nat) : Nat := cfgNat c (4 + plan) (16 + 8 * step + 4)
/-- Extension unit of a step, ds. -/
def cfgStepExtension (c : Cfg) (plan step : Nat) : Nat := cfgNat c (4 + plan) (16 + 8 * step + 6)

/-! ### Block 8: lamp map -/

/-- The three lamp aspects of the lamp map (R90). -/
inductive LampAspect where
  | red | amber | green
deriving DecidableEq, Repr

/-- The place of a lamp aspect in the map (11.4). -/
def LampAspect.index : LampAspect → Nat
  | .red => 0 | .amber => 1 | .green => 2

/-- The circuit that a lamp map byte names: 0 to 23, otherwise none. -/
def circuitOfByte (b : Byte) : Option CircuitId := if h : b.toNat < 24 then some ⟨b.toNat, h⟩ else none

/-- The X circuits of group g; none while EMPTY (R60, R90). -/
def cfgLampCircuits (c : Cfg) (g : GroupId) (a : LampAspect) : List CircuitId :=
  if cfgEmpty c then []
  else
    (circuitOfByte (cfgByte c 8 (8 * g.val + 2 * a.index))).toList
      ++ (circuitOfByte (cfgByte c 8 (8 * g.val + 2 * a.index + 1))).toList

/-- Every place of the lamp map, group A first. -/
def lampPlaces : List (GroupId × LampAspect) :=
  groupIds.flatMap (fun g => [(g, .red), (g, .amber), (g, .green)])

/-- The group and lamp aspect that a circuit is assigned to; none when it is unassigned (R90). -/
def cfgAssignment (c : Cfg) (n : CircuitId) : Option (GroupId × LampAspect) :=
  lampPlaces.find? (fun p => (cfgLampCircuits c p.1 p.2).contains n)

/-! ### Blocks 9 and 10: proving limits and core settings -/

/-- Proving is enabled for the circuit; for none while EMPTY (R60, R127). -/
def cfgProvingEnabled (c : Cfg) (n : CircuitId) : Bool := (cfgByte c 9 (10 * n.val)).getLsbD 0
/-- Auto-recover is set for the circuit. -/
def cfgAutoRecover (c : Cfg) (n : CircuitId) : Bool := (cfgByte c 9 (10 * n.val)).getLsbD 1
/-- Limit fail, mA. -/
def cfgFailLimit (c : Cfg) (n : CircuitId) : Nat := cfgNat c 9 (10 * n.val + 2)
/-- Limit low, mA. -/
def cfgLowLimit (c : Cfg) (n : CircuitId) : Nat := cfgNat c 9 (10 * n.val + 4)
/-- Limit high, mA. -/
def cfgHighLimit (c : Cfg) (n : CircuitId) : Nat := cfgNat c 9 (10 * n.val + 6)
/-- Limit critical, mA. -/
def cfgCriticalLimit (c : Cfg) (n : CircuitId) : Nat := cfgNat c 9 (10 * n.val + 8)

/-- The core is enabled; none is while EMPTY (R60, R141). -/
def cfgCoreEnabled (c : Cfg) (n : CircuitId) : Bool := (cfgByte c 10 (8 * n.val)).getLsbD 0
/-- Probe amplitude threshold, %. -/
def cfgThreshold (c : Cfg) (n : CircuitId) : Nat := (cfgByte c 10 (8 * n.val + 1)).toNat
/-- Width window minimum, µs. -/
def cfgWidthMin (c : Cfg) (n : CircuitId) : Nat := (cfgByte c 10 (8 * n.val + 2)).toNat
/-- Width window maximum, µs. -/
def cfgWidthMax (c : Cfg) (n : CircuitId) : Nat := (cfgByte c 10 (8 * n.val + 3)).toNat
/-- Cross-feed limit, V. -/
def cfgCrossLimit (c : Cfg) (n : CircuitId) : Nat := cfgNat c 10 (8 * n.val + 4)
/-- Leakage limit, µA. -/
def cfgLeakLimit (c : Cfg) (n : CircuitId) : Nat := cfgNat c 10 (8 * n.val + 6)

/-! ### Block 11: recognition table and aliases -/

/-- A byte of recognition entry e. -/
def cfgEntryByte (c : Cfg) (e off : Nat) : Byte := cfgByte c 11 (8 * e + off)
/-- A byte of entry a of the alias list. -/
def cfgAliasByte (c : Cfg) (a off : Nat) : Byte := cfgByte c 11 (128 + 4 * a + off)

/-- The entries of the alias list that are active with this identity, lowest number first (R30). -/
def cfgAliasesOf (c : Cfg) (ident : Byte) : List Nat :=
  [0, 1, 2, 3].filter (fun a => cfgAliasByte c a 0 = 1 && cfgAliasByte c a 1 = ident)

/-- The identity is an active alias (R30). -/
def cfgIsAlias (c : Cfg) (ident : Byte) : Bool := !(cfgAliasesOf c ident).isEmpty

/-- The rewrite flag of the lowest-numbered entry that holds the identity (R31). -/
def cfgAliasRewrites (c : Cfg) (ident : Byte) : Bool :=
  match cfgAliasesOf c ident with
  | [] => false
  | a :: _ => cfgAliasByte c a 2 = 1

/-! ### Blocks 12 and 13: demand map and masks -/

/-- The line is enabled; none is while EMPTY (R38, R60). -/
def cfgLineEnabled (c : Cfg) (n : LineId) : Bool := cfgByte c 12 (4 * n.val) = 1
/-- The line extends a running stage in its set (R38). -/
def cfgLineExtends (c : Cfg) (n : LineId) : Bool := cfgByte c 12 (4 * n.val + 1) = 1
/-- The stages the line demands (R38). -/
def cfgLineStages (c : Cfg) (n : LineId) : Half := cfgHalf c 12 (4 * n.val + 2)

/-- The alarm code is masked; none is while EMPTY (R60, R176). -/
def cfgNoticeMasked (c : Cfg) (code : AlarmCode) : Bool := setHas (cfgHalf c 13 0) (code.value.toNat - 1)
/-- The stage is masked in the stage-end mask; every stage is while EMPTY (R60, R178). -/
def cfgStageEndMasked (c : Cfg) (stage : Nat) : Bool := cfgEmpty c || setHas (cfgHalf c 13 2) stage

end Sys2Proof.Machine
end

