-- ==== Sys2Proof/Machine/Validation.lean ====
section
/-! DEFINITION. Validation of the staging configuration (R61 to R65): checks 1 to 9, each a list of items in the order the
check states; the first item that fails gives the check code and subject. -/

namespace Sys2Proof.Machine

/-- A failing item: check code and subject (R61). -/
abbrev CheckFailure := Byte × Byte

/-- An item of a check: its code and subject when it fails. -/
def item (fails : Bool) (code subject : Nat) : Option CheckFailure :=
  if fails then some (BitVec.ofNat 8 code, BitVec.ofNat 8 subject) else none

/-- A byte that holds neither yes nor no (11.4). -/
def notYesNo (b : Byte) : Bool := b ≠ 0 && b ≠ 1

/-- Check 1 of one group: GROUP_KIND, then ASPECT_TIME (R62). -/
def checkGroup (c : Cfg) (g : GroupId) : List (Option CheckFailure) :=
  let k := cfgByte c 1 g.val
  [item (k ≠ 0 && k ≠ 1 && k ≠ 2) 1 g.val,
   item (k = 1 && !(10 ≤ cfgRedAmber c g && cfgRedAmber c g ≤ 30 && 30 ≤ cfgAmber c g && cfgAmber c g ≤ 50)) 2 g.val,
   item (k = 2 && !(30 ≤ cfgClearance c g && cfgClearance c g ≤ 300)) 2 g.val]

/-- Pairs (i, j) with i ≤ j in order of the pair subject 8 × i + j. -/
def unorderedPairs : List (GroupId × GroupId) :=
  groupIds.flatMap (fun i => (groupIds.filter (fun j => i ≤ j)).map (fun j => (i, j)))

/-- Every ordered pair (i, j), i first and then j, both from A upward. -/
def orderedPairs : List (GroupId × GroupId) := groupIds.flatMap (fun i => groupIds.map (fun j => (i, j)))

/-- Check 2 of one pair: CONFLICT_MATRIX (R62). -/
def checkPair (c : Cfg) (i j : GroupId) : Option CheckFailure :=
  item ((i = j && cfgMarked c i j) || cfgMarked c i j != cfgMarked c j i ||
      ((cfgKind c i = .unused || cfgKind c j = .unused) && cfgMarked c i j))
    3 (8 * i.val + j.val)

/-- Check 3 of one ordered pair that conflicts: INTERGREEN (R63). -/
def checkIntergreen (c : Cfg) (i j : GroupId) : Option CheckFailure :=
  let ig := cfgIntergreen c i j
  item (cfgConflicts c i j &&
      (ig < 10 || (cfgKind c i = .vehicle && ig < cfgAmber c i) || (cfgKind c i = .pedestrian && ig < cfgClearance c i)))
    4 (8 * i.val + j.val)

/-- The largest IG(i,j) over conflicting pairs; 0 when no pair conflicts (R63). -/
def largestIntergreen (c : Cfg) : Nat :=
  orderedPairs.foldl (fun m p => if cfgConflicts c p.1 p.2 then max m (cfgIntergreen c p.1 p.2) else m) 0

/-- The stage's green set contains a VEHICLE group. -/
def stageHasVehicle (c : Cfg) (stage : Nat) : Bool :=
  groupIds.any (fun g => cfgInStage c stage g && cfgKind c g = .vehicle)

/-- Check 4 of one stage: STAGE_SET, then STAGE_MINIMUM (R63). -/
def checkStage (c : Cfg) (s : Nat) : List (Option CheckFailure) :=
  [item (groupIds.any (fun i => cfgInStage c s i &&
      (cfgKind c i = .unused || groupIds.any (fun j => cfgInStage c s j && cfgConflicts c i j)))) 5 s,
   item (stageHasVehicle c s && cfgForcedMin c s < 50) 6 s]

/-- Check 5: GENERAL, items 0 to 8 (R63). -/
def checkGeneral (c : Cfg) : List (Option CheckFailure) :=
  let id := cfgByte c 0 0
  [item (id = 0x00 || id = 0xFF) 7 0,
   item (!(2 ≤ cfgSupervisionPeriod c && cfgSupervisionPeriod c ≤ 60)) 7 1,
   item (!(30 ≤ cfgStartRed c && largestIntergreen c ≤ cfgStartRed c)) 7 2,
   item (!(30 ≤ cfgFailRed c && largestIntergreen c ≤ cfgFailRed c)) 7 3,
   item (!(50 ≤ cfgStallLimit c && cfgStallLimit c ≤ 300)) 7 4,
   item (3 < cfgIsolatedPlan c) 7 5,
   item (notYesNo (cfgByte c 0 9)) 7 6,
   item (notYesNo (cfgByte c 0 10)) 7 7,
   item (notYesNo (cfgByte c 0 11)) 7 8]

/-- The 48 lamp map bytes (11.4). -/
def lampBytes (c : Cfg) : List Byte :=
  lampPlaces.flatMap (fun p =>
    [cfgByte c 8 (8 * p.1.val + 2 * p.2.index), cfgByte c 8 (8 * p.1.val + 2 * p.2.index + 1)])

/-- Check 6 of one circuit: LAMP_DUPLICATE (R64). -/
def checkCircuitOnce (bytes : List Byte) (n : CircuitId) : Option CheckFailure :=
  item (1 < (bytes.filter (fun b => b = BitVec.ofNat 8 n.val)).length) 8 n.val

/-- A lamp aspect of a group holds a byte that names no circuit (R64: 24 to 254). -/
def lampByteBad (c : Cfg) (g : GroupId) (a : LampAspect) : Bool :=
  [0, 1].any (fun k =>
    let b := cfgByte c 8 (8 * g.val + 2 * a.index + k)
    24 ≤ b.toNat && b ≠ 255)

/-- Check 6 of one group: LAMP_GROUP (R64). -/
def checkLampGroup (c : Cfg) (g : GroupId) : Option CheckFailure :=
  let n (a : LampAspect) := (cfgLampCircuits c g a).length
  let one (a : LampAspect) : Bool := n a = 1 || n a = 2
  let kindRule : Bool :=
    match cfgKind c g with
    | .vehicle => one .red && one .amber && one .green
    | .pedestrian => one .red && n .amber = 0 && one .green
    | .unused => n .red = 0 && n .amber = 0 && n .green = 0
  item (lampByteBad c g .red || lampByteBad c g .amber || lampByteBad c g .green || !kindRule) 9 g.val

/-- Check 7 of one circuit: PROVING_LIMITS (R64). -/
def checkLimits (c : Cfg) (n : CircuitId) : Option CheckFailure :=
  item (cfgProvingEnabled c n &&
      !(cfgFailLimit c n < cfgLowLimit c n && cfgLowLimit c n < cfgHighLimit c n && cfgHighLimit c n < cfgCriticalLimit c n))
    10 n.val

/-- Check 7 of one core: CORE_SETTINGS (R64). -/
def checkCore (c : Cfg) (n : CircuitId) : Option CheckFailure :=
  item (cfgCoreEnabled c n && !(cfgWidthMin c n < cfgWidthMax c n)) 11 n.val

/-- Check 8 of one step: PLAN_STEP (R65). -/
def checkStep (c : Cfg) (p k : Nat) : Option CheckFailure :=
  item (15 < cfgStepStage c p k || cfgStepMax c p k < cfgStepMin c p k ||
      (cfgStepMin c p k < 50 && stageHasVehicle c (cfgStepStage c p k)) ||
      notYesNo (cfgByte c (4 + p) (16 + 8 * k + 1)))
    13 (16 * p + k)

/-- Check 8 of one plan: PLAN_LENGTH, then its steps (R65). -/
def checkPlan (c : Cfg) (p : Nat) : List (Option CheckFailure) :=
  item (16 < (cfgByte c (4 + p) 0).toNat) 12 p :: (List.range (cfgPlanLength c p)).map (checkStep c p)

/-- Check 8, last item: ISOLATED_PLAN (R65). -/
def checkIsolated (c : Cfg) : Option CheckFailure :=
  item (cfgPlanLength c (cfgIsolatedPlan c) = 0) 14 (cfgIsolatedPlan c)

/-- Check 9 of one recognition entry: RECOGNITION (R65). Bits 0 to 2 of its first byte are valid, kind ANY and src ANY. -/
def checkEntry (c : Cfg) (e : Nat) : Option CheckFailure :=
  let f := cfgEntryByte c e 0
  let src := cfgEntryByte c e 2
  item (f.getLsbD 0 &&
      ((!f.getLsbD 2 && (src = 0x00 || src = 0xFF)) || 3 < (cfgEntryByte c e 3).toNat || 2 < (cfgEntryByte c e 4).toNat ||
        46 < (cfgEntryByte c e 5).toNat))
    15 e

/-- Check 9 of one alias: RECOGNITION, subject 16 + alias number (R65). -/
def checkAlias (c : Cfg) (a : Nat) : Option CheckFailure :=
  let used := cfgAliasByte c a 0
  let id := cfgAliasByte c a 1
  item (notYesNo used || (used = 1 && (id = 0x00 || id = 0xFF)) || notYesNo (cfgAliasByte c a 2)) 15 (16 + a)

/-- Check 9 of one demand line: DEMAND_MAP (R65). -/
def checkLine (c : Cfg) (n : LineId) : Option CheckFailure :=
  item (notYesNo (cfgByte c 12 (4 * n.val)) || notYesNo (cfgByte c 12 (4 * n.val + 1))) 16 n.val

/-- Checks 1 to 9 in order (R61). -/
def allChecks (c : Cfg) : List (Option CheckFailure) :=
  groupIds.flatMap (checkGroup c)
    ++ unorderedPairs.map (fun p => checkPair c p.1 p.2)
    ++ orderedPairs.map (fun p => checkIntergreen c p.1 p.2)
    ++ (List.range 16).flatMap (checkStage c)
    ++ checkGeneral c
    ++ circuitIds.map (checkCircuitOnce (lampBytes c))
    ++ groupIds.map (checkLampGroup c)
    ++ circuitIds.map (checkLimits c)
    ++ circuitIds.map (checkCore c)
    ++ (List.range 4).flatMap (checkPlan c)
    ++ [checkIsolated c]
    ++ (List.range 16).map (checkEntry c)
    ++ (List.range 4).map (checkAlias c)
    ++ lineIds.map (checkLine c)

/-- The first item that fails; none when every check passes (R61). -/
def validate (m : Memory) : Option CheckFailure := (allChecks (some m)).findSome? id

end Sys2Proof.Machine
end

