-- ==== Sys2Proof/Machine/Flags.lean ====
section
/-! DEFINITION. The derived values and conditions of the part: what the configuration is, what a circuit is commanded to
do, red status and green evidence, the red interlock, the stall timer, the fallback condition, what holds the Management
Unit. Each is a function of the state (log 12). -/

namespace Sys2Proof.Machine

/-- The active configuration. -/
def State.cfg (s : State) : Cfg := s.mgmt.active

/-- The own identity: 0x40 plus the value on ID3 to ID0 as sampled at the last reset (R25). -/
def State.ownId (s : State) : Byte := 0x40 + s.mgmt.ident.setWidth 8

/-! ### Groups -/

/-- A used group: its kind is not UNUSED. -/
def State.used (s : State) (g : GroupId) : Bool := s.groups[g].kind != .unused

/-- Groups i and j conflict in the active configuration. -/
def State.conflicts (s : State) (i j : GroupId) : Bool := cfgConflicts s.cfg i j

/-- A group that conflicts with g is in right of way (R84). -/
def State.conflictInRightOfWay (s : State) (g : GroupId) : Bool :=
  groupIds.any (fun i => s.conflicts i g && s.groups[i].aspect.rightOfWay)

/-- The red interlock for group g (R87): every group that conflicts with it is PROVEN and shows no green evidence. -/
def State.interlock (s : State) (g : GroupId) : Bool :=
  groupIds.all (fun i => !s.conflicts i g || (s.groups[i].redStatus = .proven && !s.groups[i].evidence))

/-- The earliest green of group g: the latest, over the groups that conflict with it, of green-end time plus intergreen;
with no such group the instant of the request (R82). -/
def State.earliestGreen (s : State) (g : GroupId) : Nat :=
  match groupIds.filter (fun i => s.conflicts i g) with
  | [] => s.stamp
  | l => l.foldl (fun e i => max e (s.seen s.groups[i].greenEnd + cfgIntergreen s.cfg i g)) 0

/-- Every used group is RED. -/
def State.allUsedRed (s : State) : Bool := groupIds.all (fun g => !s.used g || s.groups[g].aspect = .red)

/-- Every group is RED or DARK (R68). -/
def State.allRedOrDark (s : State) : Bool :=
  groupIds.all (fun g => s.groups[g].aspect = .red || s.groups[g].aspect = .dark)

/-! ### Stall timer -/

/-- A gaining group is withheld: it has a gain request and is held by the interlock (R111). -/
def Group.stalled (x : Group) : Bool := x.withheld && x.gain.isSome

/-- The stall timer runs (R111). -/
def State.stallRunning (s : State) : Bool :=
  s.seq.mode = .run && groupIds.any (fun g => s.groups[g].stalled)

/-- The gaining group withheld longest, the lower index first among equals, with its withheld-since (R111). -/
def State.longestWithheld (s : State) : Option (GroupId × Nat) :=
  groupIds.foldl
    (fun best g =>
      match s.groups[g].stalled, s.groups[g].withheldSince with
      | true, some t =>
        match best with
        | none => some (g, s.seen t)
        | some (_, b) => if s.seen t < b then some (g, s.seen t) else best
      | _, _ => best)
    none

/-! ### Lamp drive -/

/-- What a circuit is commanded to do (R92). -/
inductive Command where
  | off | on | flash
deriving DecidableEq, Repr

/-- The value shown by a PEEK (ch11). -/
def Command.value : Command → Byte
  | .off => 0 | .on => 1 | .flash => 2

/-- The commanded state of an X circuit of a group that shows an aspect (R91). -/
def lampCommand : Aspect → LampAspect → Command
  | .red, .red => .on
  | .red, .amber => .off
  | .red, .green => .off
  | .redAmber, .red => .on
  | .redAmber, .amber => .on
  | .redAmber, .green => .off
  | .green, .red => .off
  | .green, .amber => .off
  | .green, .green => .on
  | .amber, .red => .off
  | .amber, .amber => .on
  | .amber, .green => .off
  | .greenFlash, .red => .off
  | .greenFlash, .amber => .off
  | .greenFlash, .green => .flash
  | .flashAmber, .red => .off
  | .flashAmber, .amber => .flash
  | .flashAmber, .green => .off
  | .dark, _ => .off

/-- The commanded state of a circuit: OFF when unassigned or locked out, else by its group's aspect (R91). -/
def State.commanded (s : State) (n : CircuitId) : Command :=
  if s.drive.records[n].lockout then .off
  else
    match cfgAssignment s.cfg n with
    | none => .off
    | some (g, a) => lampCommand s.groups[g].aspect a

/-- The target of a circuit (R94); OFF for every circuit while DRIVE_EN is low (R96). -/
def State.target (s : State) (n : CircuitId) : Bool :=
  s.drive.driveEn &&
    match s.commanded n with
    | .off => false
    | .on => true
    | .flash => s.drive.flashOn

/-! ### Red status and green evidence -/

/-- A circuit counts toward LOST (R137). -/
def State.redGone (s : State) (n : CircuitId) : Bool :=
  s.circuits[n].state = .failed || s.circuits[n].state = .shorted || s.circuits[n].state = .notProvable ||
    s.drive.records[n].lockout

/-- A circuit makes its group PROVEN (R137). -/
def State.redGood (s : State) (n : CircuitId) : Bool :=
  s.circuits[n].state = .proven || s.circuits[n].state = .dim

/-- The red status of a group, worked out from its RED circuits; UNPROVEN for an UNUSED group (R137). -/
def State.redStatusOf (s : State) (g : GroupId) : RedStatus :=
  let reds := cfgLampCircuits s.cfg g .red
  if !s.used g then .unproven
  else if reds.any (fun n => s.redGood n) then .proven
  else if !reds.isEmpty && reds.all (fun n => s.redGone n) then .lost
  else .unproven

/-- The green evidence of a group: a GREEN circuit applied ON or with its core in CROSS_FEED (R157). -/
def State.evidenceOf (s : State) (g : GroupId) : Bool :=
  s.used g && (cfgLampCircuits s.cfg g .green).any
    (fun n => s.drive.records[n].applied || s.cable.cores[n].state = .crossFeed)

/-- The pair subject of two groups (00_scope.md: 8 × the lower index + the higher). -/
def pairSubject (i j : GroupId) : Byte := BitVec.ofNat 8 (8 * min i.val j.val + max i.val j.val)

/-! ### Fallback condition, Management Unit, running stage -/

/-- The condition that alarm FALLBACK reflects (R162). -/
def State.fallbackCondition (s : State) : Bool :=
  (s.seq.mode = .failRed || s.seq.mode = .flash || s.seq.mode = .dark) &&
    s.fallback.cause.cause != .driveOff && s.fallback.cause.cause != .configEmpty

/-- The Management Unit is held (R47). -/
def State.held (s : State) : Bool :=
  s.mgmt.store != .idle || s.mgmt.activation = .pending || s.mgmt.stationReset != .none

/-- The running stage (R39): the current stage in RUN while the step state is MIN or EXTEND. -/
def State.runningStage (s : State) : Option Nat :=
  if s.seq.mode = .run && (s.seq.step = .min || s.seq.step = .extend) then s.seq.stage else none

/-- The held-extension condition of the line of a contact (R40). -/
def State.heldCondition (s : State) (k : ContactId) : Bool :=
  let d := contactLine k
  cfgLineEnabled s.cfg d && cfgLineExtends s.cfg d && s.demand.contacts[k].closed &&
    s.seq.mode = .run && s.seq.step = .extend &&
    match s.seq.stage with
    | none => false
    | some t => setHas (cfgLineStages s.cfg d) t

/-- RING IN is receiving: collecting or discarding (R11, R13). -/
def Reception.receiving : Reception → Bool
  | .waiting => false
  | .collecting _ _ => true
  | .discarding _ => true

end Sys2Proof.Machine
end

