-- ==== Sys2Proof/Machine/Notify.lean ====
section
/-! DEFINITION. The Alarm Unit (ch10): raises, clears, notices and stage-end flags; and the queueing of a NOTICE by the Ring
Port Unit (R18). -/

namespace Sys2Proof.Machine

/-! ### Queueing a NOTICE (R18) -/

/-- The NOTICE frame that the Ring Port Unit completes (R18). -/
def noticeFrame (own dest seq : Byte) (payload : List Byte) : Frame :=
  { kind := kindNotice, flags := 0, dest := dest, src := own, seq := seq, tally := 0, payload := payload }

/-- Queue a NOTICE: append it and number it, or count NOTICE_LOST when 8 wait; the first in an empty queue attempts at once
(R18, R19). That its attempt is an INSERTION_ATTEMPT due at this instant, taken after the whole step that hands the notice over and so,
where a frame arrives and is forwarded, after that frame has joined the transit queue, is the model's choice: the manual gives no order
(log 48). -/
def queueNotice (now : Nat) (own dest : Byte) (payload : List Byte) (r : RingPort) : RingPort :=
  if r.insertion.length < 8 then
    { r with
      insertion := r.insertion ++ [{ frame := noticeFrame own dest r.insertionSeq payload, deferrals := 0 }]
      insertionSeq := r.insertionSeq + 1
      nextAttempt := if r.insertion.isEmpty then some now else r.nextAttempt }
  else { r with counters := { r.counters with noticeLost := satInc r.counters.noticeLost } }

/-- Hand a notice's payload to the Ring Port Unit, addressed to the supervisor (R174, R175). -/
def State.notice (s : State) (payload : List Byte) : State :=
  { s with ring := queueNotice s.now s.ownId (cfgSupervisorId s.cfg) payload s.ring }

/-! ### The alarm list (R168 to R171) -/

/-- The entry is for this code and subject. -/
def AlarmEntry.is (e : AlarmEntry) (code : AlarmCode) (subject : Byte) : Bool := e.code = code && e.subject = subject

/-- The list without its oldest CLEARED entry (R169). -/
def dropOldestCleared : List AlarmEntry → List AlarmEntry
  | [] => []
  | e :: l => if e.active then e :: dropOldestCleared l else l

/-- A new entry (R169). -/
def newEntry (clock : Word) (masked : Bool) (code : AlarmCode) (subject : Byte) : AlarmEntry :=
  { code := code, subject := subject, active := true, firstRaised := clock, lastChange := clock, occurrences := 1,
    notified := !masked }

/-- An entry raised again (R169): an ACTIVE one is counted, a CLEARED one becomes ACTIVE and is notified unless masked. -/
def raiseEntry (clock : Word) (masked : Bool) (e : AlarmEntry) : AlarmEntry :=
  { e with
    active := true
    occurrences := satInc e.occurrences
    lastChange := clock
    notified := if e.active then e.notified else !masked }

/-- A raise (R169, R170): the unit after it and the entry to notify, if any. -/
def raiseOn (clock : Word) (masked : Bool) (code : AlarmCode) (subject : Byte) (a : Alarms) :
    Alarms × Option AlarmEntry :=
  match a.list.find? (fun e => e.is code subject) with
  | some e =>
    ({ a with list := a.list.map (fun x => if x.is code subject then raiseEntry clock masked x else x) },
      if e.active then none else some (raiseEntry clock masked e))
  | none =>
    let fresh := newEntry clock masked code subject
    if a.list.length < 32 then ({ a with list := a.list ++ [fresh] }, some fresh)
    else if a.list.any (fun e => !e.active) then ({ a with list := dropOldestCleared a.list ++ [fresh] }, some fresh)
    else ({ a with lost := satInc a.lost, overflow := true }, none)

/-- An entry cleared (R171). -/
def clearEntry (clock : Word) (masked : Bool) (e : AlarmEntry) : AlarmEntry :=
  { e with active := false, lastChange := clock, notified := !masked }

/-- A clear (R171): the unit after it and the entry to notify, if any. -/
def clearOn (clock : Word) (masked : Bool) (code : AlarmCode) (subject : Byte) (a : Alarms) :
    Alarms × Option AlarmEntry :=
  match a.list.find? (fun e => e.is code subject && e.active) with
  | some e =>
    ({ a with list := a.list.map (fun x => if x.is code subject && x.active then clearEntry clock masked x else x) },
      some (clearEntry clock masked e))
  | none => (a, none)

/-- The Ring Port Unit after a change of the list: one notice for the changed entry unless its code is masked (R174). -/
def State.noticeFor (s : State) (masked : Bool) (changed : Option AlarmEntry) : RingPort :=
  match masked, changed with
  | false, some e => queueNotice s.now s.ownId (cfgSupervisorId s.cfg) (noticePayload e) s.ring
  | _, _ => s.ring

/-- Raise an alarm (R169, R174). -/
def State.raise (s : State) (code : AlarmCode) (subject : Byte) : State :=
  let masked := cfgNoticeMasked s.cfg code
  let r := raiseOn s.seq.clock masked code subject s.alarms
  { s with alarms := r.1, ring := s.noticeFor masked r.2 }

/-- Clear an alarm (R171, R174). -/
def State.clear (s : State) (code : AlarmCode) (subject : Byte) : State :=
  let masked := cfgNoticeMasked s.cfg code
  let r := clearOn s.seq.clock masked code subject s.alarms
  { s with alarms := r.1, ring := s.noticeFor masked r.2 }

/-- An alarm event of a state machine: a raise (true) or a clear (false) of a code. -/
abbrev AlarmEvent := Bool × AlarmCode

/-- Hand over alarm events about one subject, in order. -/
def State.alarmEvents (s : State) (subject : Byte) (l : List AlarmEvent) : State :=
  l.foldl (fun s e => if e.1 then s.raise e.2 subject else s.clear e.2 subject) s

/-! ### Stage-end flags (R177) -/

/-- The sequencer leaves a stage: its flag is set; the first setting of an unmasked stage builds a STAGE_END notice. -/
def State.stageEnd (s : State) (stage : Nat) : State :=
  let flags := setAdd s.alarms.stageEnd stage
  let first := !setHas s.alarms.stageEnd stage && !cfgStageEndMasked s.cfg stage
  { s with
    alarms := { s.alarms with stageEnd := flags }
    ring :=
      if first then queueNotice s.now s.ownId (cfgSupervisorId s.cfg) (stageEndPayload flags s.seq.clock) s.ring
      else s.ring }

/-- RETIRE: every CLEARED entry is removed and the overflow flag cleared (R50, R173). -/
def retireOn (a : Alarms) : Alarms := { a with list := a.list.filter (fun e => e.active), overflow := false }

end Sys2Proof.Machine
end

