-- ==== Sys2Proof/Machine/Aspects.lean ====
section
/-! DEFINITION. The Aspect Unit (ch5): requests to the groups, entries to RED_AMBER and GREEN, withholding and release.
Every operation changes group records only. -/

namespace Sys2Proof.Machine

/-! ### One group record -/

/-- A group that leaves GREEN by any path records the instant as its green-end time (R77, R78, R81). -/
def Group.endGreen (x : Group) (stamp : Nat) : Nat := if x.aspect = .green then stamp else x.greenEnd

/-- A group with no gain request, no withholding (R79 to R81). -/
def Group.plain (x : Group) : Group := { x with gain := none, withheld := false, withheldSince := none }

/-- TERMINATE by aspect (R79); `t` is the amber or clearance timer. -/
def Group.terminate (x : Group) (stamp : Nat) (amber clearance : Timer) : Group :=
  match x.kind, x.aspect with
  | .unused, _ => x
  | .vehicle, .green => { x with aspect := .amber, timer := some amber, greenEnd := stamp, gain := none }
  | .pedestrian, .green => { x with aspect := .greenFlash, timer := some clearance, greenEnd := stamp, gain := none }
  | _, .redAmber => { x.plain with aspect := .red, timer := none }
  | _, .red => x.plain
  | _, .amber => { x with gain := none }
  | _, .greenFlash => { x with gain := none }
  | _, .flashAmber => { x with gain := none }
  | _, .dark => { x with gain := none }

/-- RETURN_RED by aspect (R80); a group in GREEN, GREEN_FLASH, AMBER, FLASH_AMBER or DARK is not changed. R80 also says
that for every group the request sets the gain request to none: that AMBER and GREEN_FLASH keep theirs is the model's choice (log 45). -/
def Group.returnRed (x : Group) : Group :=
  match x.kind, x.aspect with
  | .unused, _ => x
  | _, .redAmber => { x.plain with aspect := .red, timer := none }
  | _, .red => x.plain
  | _, .green => x
  | _, .greenFlash => x
  | _, .amber => x
  | _, .flashAmber => x
  | _, .dark => x

/-- A whole-junction request sets a used group's aspect at once and clears its timer, gain request and withholding (R81). -/
def Group.show (x : Group) (stamp : Nat) (vehicle pedestrian : Aspect) : Group :=
  match x.kind with
  | .unused => x
  | .vehicle => { x.plain with aspect := vehicle, timer := none, greenEnd := x.endGreen stamp }
  | .pedestrian => { x.plain with aspect := pedestrian, timer := none, greenEnd := x.endGreen stamp }

/-- The group enters RED_AMBER; its aspect timer is loaded (R83, R88). -/
def Group.enterRedAmber (x : Group) (t : Timer) : Group :=
  { x with aspect := .redAmber, timer := some t, withheld := false, withheldSince := none }

/-- The group enters GREEN (R84). -/
def Group.enterGreen (x : Group) : Group :=
  { x with aspect := .green, timer := none, gain := none, withheld := false, withheldSince := none }

/-- The group is withheld in RED; withheld-since is kept while it was already withheld (R88). -/
def Group.withhold (x : Group) (stamp : Nat) : Group :=
  { x with
    aspect := .red, timer := none, withheld := true
    withheldSince := if x.withheld then x.withheldSince else some stamp }

/-! ### Requests (5.3) -/

/-- TERMINATE (R79). -/
def State.terminate (s : State) (g : GroupId) : State :=
  s.setGroup g (s.groups[g].terminate s.stamp (s.loadTimer (cfgAmber s.cfg g)) (s.loadTimer (cfgClearance s.cfg g)))

/-- RETURN_RED (R80). -/
def State.returnRed (s : State) (g : GroupId) : State := s.setGroup g s.groups[g].returnRed

/-- A whole-junction request on every group (R81). -/
def State.showAll (s : State) (vehicle pedestrian : Aspect) : State :=
  { s with groups := Vector.ofFn (fun g => s.groups[g].show s.stamp vehicle pedestrian) }

/-- SHOW_RED (R81). -/
def State.showRed (s : State) : State := s.showAll .red .red
/-- SHOW_FLASH (R81). -/
def State.showFlash (s : State) : State := s.showAll .flashAmber .dark
/-- SHOW_DARK (R81). -/
def State.showDark (s : State) : State := s.showAll .dark .dark

/-- GAIN (R82, R86): the gain request becomes the earliest green worked out now. Not sent to a group in GREEN, not taken in
FLASH_AMBER or DARK, nor by an UNUSED group. -/
def State.gain (s : State) (g : GroupId) : State :=
  match s.groups[g].kind, s.groups[g].aspect with
  | .unused, _ => s
  | _, .green => s
  | _, .flashAmber => s
  | _, .dark => s
  | _, .red => s.setGroup g { s.groups[g] with gain := some (s.earliestGreen g) }
  | _, .redAmber => s.setGroup g { s.groups[g] with gain := some (s.earliestGreen g) }
  | _, .amber => s.setGroup g { s.groups[g] with gain := some (s.earliestGreen g) }
  | _, .greenFlash => s.setGroup g { s.groups[g] with gain := some (s.earliestGreen g) }

/-! ### Gaining green (5.4, 5.5) -/

/-- The red interlock failed: the group is withheld (R88). -/
def State.withhold (s : State) (g : GroupId) : State := s.setGroup g (s.groups[g].withhold s.stamp)

/-- The entry to GREEN is tried (R84). Before E, or while a conflicting group is in right of way, the group stays as it is;
then the interlock decides. -/
def State.tryGreen (s : State) (g : GroupId) : State :=
  if !s.reached s.groups[g].gain then s
  else if s.conflictInRightOfWay g then s
  else if s.interlock g then s.setGroup g s.groups[g].enterGreen
  else s.withhold g

/-- RED_AMBER falls due: the interlock lets the group in or withholds it (R83). -/
def State.tryRedAmber (s : State) (g : GroupId) : State :=
  if s.interlock g then s.setGroup g (s.groups[g].enterRedAmber (s.loadTimer (cfgRedAmber s.cfg g)))
  else s.withhold g

/-- The release of a withheld group (R88): E is worked out afresh; a VEHICLE group enters RED_AMBER at once, a PEDESTRIAN group
tries its entry to GREEN. -/
def State.release (s : State) (g : GroupId) : State :=
  let e := s.earliestGreen g
  match s.groups[g].kind with
  | .vehicle =>
    s.setGroup g { s.groups[g].enterRedAmber (s.loadTimer (cfgRedAmber s.cfg g)) with gain := some e }
  | .pedestrian =>
    (s.setGroup g { s.groups[g] with gain := some e, withheld := false, withheldSince := none }).tryGreen g
  | .unused => s

/-- A withheld group is checked again (R88). -/
def State.recheck (s : State) (g : GroupId) : State :=
  if s.groups[g].withheld && s.interlock g then s.release g else s

/-- Every withheld group that conflicts with group i is checked again, A first (R88, log 5). -/
def State.recheckAround (s : State) (i : GroupId) : State :=
  groupIds.foldl (fun s g => if s.conflicts i g then s.recheck g else s) s

/-- The group waits at its entry to GREEN: a PEDESTRIAN group in RED, or a VEHICLE group in RED_AMBER whose red-amber time
has run (R84, R86). -/
def Group.waitsForGreen (x : Group) : Bool :=
  x.gain.isSome && !x.withheld &&
    match x.kind, x.aspect with
    | .vehicle, .redAmber => x.timer.isNone
    | .pedestrian, .red => true
    | _, _ => false

/-- A group has left right of way: each waiting group that conflicts with it tries its entry again, A first (R84, log 5). -/
def State.retryAround (s : State) (i : GroupId) : State :=
  groupIds.foldl (fun s g => if s.conflicts i g && s.groups[g].waitsForGreen then s.tryGreen g else s) s

/-- The group enters RED at the end of its amber or clearance and takes a pending GAIN, E worked out now (R77, R78, R86). -/
def State.endTermination (s : State) (g : GroupId) : State :=
  let x := s.groups[g]
  s.setGroup g
    { x with aspect := .red, timer := none, gain := if x.gain.isSome then some (s.earliestGreen g) else none }

/-- Groups in right of way, or in AMBER with a gain request, TERMINATE; groups in RED_AMBER, withheld or with a gain request
in RED return to RED (ALL_RED R118, FAIL_RED R164, transfer R70). -/
def State.clearToRed (s : State) : State :=
  groupIds.foldl
    (fun s g =>
      let x := s.groups[g]
      match x.aspect with
      | .green => s.terminate g
      | .greenFlash => s.terminate g
      | .amber => if x.gain.isSome then s.terminate g else s
      | .redAmber => s.returnRed g
      | .red => if x.withheld || x.gain.isSome then s.returnRed g else s
      | .flashAmber => s
      | .dark => s)
    s

end Sys2Proof.Machine
end

