-- ==== Sys2Proof/Machine/Modes.lean ====
section
/-! DEFINITION. Changes of junction mode and of the fallback cause (ch9), the end of normal control (R101), the entry to
START (R102), and what follows a change of red status (R138) or of green evidence (R157, R158). -/

namespace Sys2Proof.Machine

/-! ### Held-extension timing (R40) -/

/-- No held extension is timed: the step is not in EXTEND (R40). -/
def Demand.noHeld (d : Demand) : Demand := { d with held := Vector.replicate 8 none }

/-! ### The end of normal control -/

/-- The sequencer's own fields at the end of normal control (R101). -/
def Sequencer.endNormal (q : Sequencer) : Sequencer :=
  { q with
    step := .none, stage := none, stepStart := none, minExpiry := none, deadline := none
    pendingForce := none, force := .none, hold := false, isolatedSwitch := false, switchKept := false, resumeStep := none
    startRed := none }

/-- The sequencer's fields take their values of R101; a transfer ends, and no held extension is timed (R40, R68). -/
def State.endNormal (s : State) : State :=
  { s with seq := { s.seq.endNormal with transfer := .none }, demand := s.demand.noHeld }

/-- Normal control ends when the junction is in START, RUN or ALL_RED; a transfer ends with it (R68, R101). -/
def State.leaveNormal (s : State) : State := if s.seq.mode.normal then s.endNormal else s

/-! ### Cause and mode -/

/-- A cause written with its subject and the present cabinet clock (R161); `running` tells whether the last-fallback record
takes the same values. -/
def State.written (s : State) (cause : Cause) (subject : Byte) (running : Bool) : Fallback :=
  let c : CauseRecord := { cause := cause, subject := subject, time := s.seq.clock }
  { s.fallback with cause := c, last := if running then c else s.fallback.last }

/-- Alarm FALLBACK follows its condition: raised when the condition becomes true, cleared when it becomes false (R162). -/
def State.followFallback (s : State) (before : Bool) : State :=
  match before, s.fallbackCondition with
  | false, true => s.raise .fallback 255
  | true, false => s.clear .fallback 255
  | false, false => s
  | true, true => s

/-- The junction mode and the Fallback Controller's records change at one instant; alarm FALLBACK follows. -/
def State.shift (s : State) (m : JunctionMode) (f : Fallback) : State :=
  ({ s with seq := { s.seq with mode := m }, fallback := f }).followFallback s.fallbackCondition

/-- Mode FLASH by SHOW_FLASH: normal control ends and the fail-red timer becomes NONE (R101, R164, R165). -/
def State.toFlash (s : State) (f : Fallback) : State :=
  (s.leaveNormal.shift .flash { f with failRed := .none }).showFlash

/-- Mode DARK by SHOW_DARK (R101, R164, R165). -/
def State.toDark (s : State) (f : Fallback) : State :=
  (s.leaveNormal.shift .dark { f with failRed := .none }).showDark

/-! ### Controlled fallback (R163, R164) -/

/-- The fallback cause is kept when a controlled cause meets it in a fallback mode (R163). -/
def State.causeKept (s : State) : Bool :=
  s.fallback.cause.cause = .conflict || (s.fallback.cause.cause = .driveOff && !s.drive.driveEn)

/-- A controlled cause is handed to the Fallback Controller (R163); from normal control it enters FAIL_RED (R164). -/
def State.controlled (s : State) (cause : Cause) (subject : Byte) : State :=
  let f := s.written cause subject true
  if s.seq.mode.normal then (s.leaveNormal.shift .failRed { f with failRed := .waiting }).clearToRed
  else if s.causeKept then s
  else s.shift s.seq.mode f

/-! ### Entry to START (R102, R139) -/

/-- A red still LOST under red-loss action FLASH hands RED_LOSS over again (R139). -/
def State.redLossAtStart (s : State) : State :=
  if cfgRedLossFlash s.cfg then
    groupIds.foldl
      (fun s g => if s.groups[g].redStatus = .lost then s.controlled .redLoss (BitVec.ofNat 8 g.val) else s) s
  else s

/-- START is entered: the fields that R101 sets take its values, also an isolated switch that a supervision expiry has set in a fallback
mode (log 41); SHOW_RED, the start-red timer is loaded (R102), a red still LOST is handed over (R139). -/
def State.enterStart (s : State) (f : Fallback) : State :=
  let t := (s.endNormal.shift .start { f with failRed := .none }).showRed
  let t := { t with seq := { t.seq with startRed := some (t.loadTimer (cfgStartRed t.cfg)) } }
  t.redLossAtStart

/-! ### Conflict (R158, R159) -/

/-- A detected conflict with its pair subjects, lowest first: the latch is set, the pairs count as detected, alarm CONFLICT is raised
for each pair, the cause becomes CONFLICT with the lowest, and the mode follows the table of R159. CONFLICT is raised before FALLBACK
follows; the manual gives no order (log 5). -/
def State.conflictDetected (s : State) (pairs : List Byte) : State :=
  match pairs with
  | [] => s
  | p :: _ =>
    let latched := s.fallback.latch
    let f := { s.written .conflict p true with latch := true, detected := s.fallback.detected ++ pairs }
    let t := pairs.foldl (fun s q => s.raise .conflict q) { s with fallback := { s.fallback with latch := true } }
    match s.seq.mode with
    | .dark => t.shift .dark f
    | .flash => if latched || cfgConflictDark s.cfg then t.toDark f else t.shift .flash f
    | .start => if cfgConflictDark s.cfg then t.toDark f else t.toFlash f
    | .run => if cfgConflictDark s.cfg then t.toDark f else t.toFlash f
    | .allRed => if cfgConflictDark s.cfg then t.toDark f else t.toFlash f
    | .failRed => if cfgConflictDark s.cfg then t.toDark f else t.toFlash f

/-- The pair subjects, lowest first, of the groups with evidence that conflict with group g. -/
def State.pairsWith (s : State) (g : GroupId) : List Byte :=
  (groupIds.filter (fun i => s.conflicts i g && s.groups[i].evidence)).map (fun i => pairSubject i g)

/-- The pair subjects, lowest first, of every conflicting pair in evidence that is not already detected (R158, at the swap). -/
def State.pairsInEvidence (s : State) : List Byte :=
  ((unorderedPairs.filter
    (fun p => s.conflicts p.1 p.2 && s.groups[p.1].evidence && s.groups[p.2].evidence)).map
      (fun p => pairSubject p.1 p.2)).filter (fun p => !s.fallback.detected.contains p)

/-- A pair subject names a group (00_scope.md: 8 × the lower index + the higher). -/
def pairNames (p : Byte) (g : GroupId) : Bool := p.toNat / 8 = g.val || p.toNat % 8 = g.val

/-- The detected pairs whose groups still show evidence on both sides: a pair is detected again only after a loss (R158). -/
def State.lastingPairs (s : State) : List Byte :=
  s.fallback.detected.filter (fun p => groupIds.all (fun g => !pairNames p g || s.groups[g].evidence))

/-- The detected pairs that no longer last are dropped (R158). -/
def State.dropEndedPairs (s : State) : State := { s with fallback := { s.fallback with detected := s.lastingPairs } }

/-- A group's evidence takes a new value: withheld groups around it are checked again, and a gain of evidence is tested for
conflict (R157, R158). -/
def State.setEvidence (s : State) (g : GroupId) (v : Bool) : State :=
  let t := (s.setGroup g { s.groups[g] with evidence := v }).dropEndedPairs.recheckAround g
  if v then t.conflictDetected (t.pairsWith g) else t

/-- Green evidence is worked out afresh (R157): groups that lose it first, then groups that gain it, A first (log 15). -/
def State.refreshEvidence (s : State) : State :=
  let lose := groupIds.foldl
    (fun s g => if s.groups[g].evidence && !s.evidenceOf g then s.setEvidence g false else s) s
  groupIds.foldl
    (fun s g => if !s.groups[g].evidence && s.evidenceOf g then s.setEvidence g true else s) lose

/-! ### Red status (R137, R138) -/

/-- A group's red status takes a new value: withheld groups around it are checked again; entering LOST raises RED_LOST and
under red-loss action FLASH hands RED_LOSS over; leaving LOST clears RED_LOST (R138). RED_LOST is raised before the cause is handed
over, and so before FALLBACK; the manual gives no order (log 5). -/
def State.setRedStatus (s : State) (g : GroupId) (v : RedStatus) : State :=
  let subject := BitVec.ofNat 8 g.val
  let t := (s.setGroup g { s.groups[g] with redStatus := v }).recheckAround g
  match s.groups[g].redStatus, v with
  | .lost, .lost => t
  | .lost, .unproven => t.clear .redLost subject
  | .lost, .proven => t.clear .redLost subject
  | .unproven, .lost =>
    let t := t.raise .redLost subject
    if cfgRedLossFlash s.cfg then t.controlled .redLoss subject else t
  | .proven, .lost =>
    let t := t.raise .redLost subject
    if cfgRedLossFlash s.cfg then t.controlled .redLoss subject else t
  | .unproven, .unproven => t
  | .unproven, .proven => t
  | .proven, .unproven => t
  | .proven, .proven => t

/-- Group red status is worked out afresh, A first (R137, R138). -/
def State.refreshRed (s : State) : State :=
  groupIds.foldl
    (fun s g => if s.groups[g].redStatus = s.redStatusOf g then s else s.setRedStatus g (s.redStatusOf g)) s

end Sys2Proof.Machine
end

