-- ==== Sys2Proof/Machine/LampDrive.lean ====
section
/-! DEFINITION. The Drive Unit's switching of outputs (R94), the Proving Unit's records (ch7) and the Cable Monitor's records
(ch8), each as an operation that the commands call. -/

namespace Sys2Proof.Machine

/-! ### Proving records -/

/-- The class of a current reading (R128). -/
inductive ReadingClass where
  | critical | high | fail | dim | good
deriving DecidableEq, Repr

/-- The class of a value, the first test that holds (R128). -/
def classOf (c : Cfg) (n : CircuitId) (v : Nat) : ReadingClass :=
  if cfgCriticalLimit c n ≤ v then .critical
  else if cfgHighLimit c n ≤ v then .high
  else if v < cfgFailLimit c n then .fail
  else if v < cfgLowLimit c n then .dim
  else .good

/-- A change of proving state sets the fail, dim and good counts to 0 (R133). -/
def ProvingRecord.enter (r : ProvingRecord) (st : ProvingState) : ProvingRecord :=
  { r with state := st, fail := 0, dim := 0, good := 0 }

/-- The lamp alarm that the state DIM or FAILED holds. -/
def ProvingState.alarm : ProvingState → Option AlarmCode
  | .dim => some .lampDim
  | .failed => some .lampFailed
  | .shorted => some .lampShort
  | .unproven => none
  | .proven => none
  | .notProvable => none
  | .disabled => none

/-- A reading of class CRITICAL (R129): SHORTED; its alarms in order. -/
def ProvingRecord.critical (r : ProvingRecord) : ProvingRecord × List AlarmEvent :=
  ({ r.enter .shorted with high := 0, overloaded := false },
    [(true, .lampShort)] ++ (if r.overloaded then [(false, .lampOverload)] else [])
      ++ (r.state.alarm.toList.map (fun a => (false, a))))

/-- A reading of class HIGH (R130). -/
def ProvingRecord.highReading (r : ProvingRecord) : ProvingRecord × List AlarmEvent :=
  let r := { r with fail := 0, dim := 0, good := 0 }
  if r.overloaded then ({ r with high := 0 }, [])
  else if satInc r.high = 16 then ({ r with high := 0, overloaded := true }, [(true, .lampOverload)])
  else ({ r with high := satInc r.high }, [])

/-- What a reading below high does to the high count (R130). -/
def ProvingRecord.belowHigh (r : ProvingRecord) : ProvingRecord × List AlarmEvent :=
  if !r.overloaded then ({ r with high := 0 }, [])
  else if satInc r.high = 16 then ({ r with high := 0, overloaded := false }, [(false, .lampOverload)])
  else ({ r with high := satInc r.high }, [])

/-- A reading of class FAIL, the high count apart (R131). -/
def ProvingRecord.failReading (r : ProvingRecord) : ProvingRecord × List AlarmEvent :=
  let r := { r with fail := satInc r.fail, dim := 0, good := 0 }
  if r.fail = 8 then
    match r.state with
    | .unproven => (r.enter .failed, [(true, .lampFailed)])
    | .proven => (r.enter .failed, [(true, .lampFailed)])
    | .dim => (r.enter .failed, [(true, .lampFailed), (false, .lampDim)])
    | .failed => (r, [])
    | .shorted => (r, [])
    | .notProvable => (r, [])
    | .disabled => (r, [])
  else (r, [])

/-- A reading of class DIM, the high count apart (R131). -/
def ProvingRecord.dimReading (r : ProvingRecord) : ProvingRecord × List AlarmEvent :=
  let r := { r with dim := satInc r.dim, fail := 0, good := 0 }
  if r.dim = 16 then
    match r.state with
    | .unproven => (r.enter .dim, [(true, .lampDim)])
    | .proven => (r.enter .dim, [(true, .lampDim)])
    | .dim => (r, [])
    | .failed => (r, [])
    | .shorted => (r, [])
    | .notProvable => (r, [])
    | .disabled => (r, [])
  else (r, [])

/-- A reading of class GOOD, the high count apart (R132, R133). -/
def ProvingRecord.goodReading (r : ProvingRecord) (autoRecover : Bool) : ProvingRecord × List AlarmEvent :=
  let r := { r with good := satInc r.good, fail := 0, dim := 0 }
  match r.state with
  | .unproven => if r.good = 4 then (r.enter .proven, []) else (r, [])
  | .dim => if r.good = 64 && autoRecover then (r.enter .proven, [(false, .lampDim)]) else (r, [])
  | .failed => if r.good = 64 && autoRecover then (r.enter .proven, [(false, .lampFailed)]) else (r, [])
  | .proven => (r, [])
  | .shorted => (r, [])
  | .notProvable => (r, [])
  | .disabled => (r, [])

/-- A reading that is classified acts on the record (R129 to R133). A reading below high that both clears LAMP_OVERLOAD and changes the
state gives the clear of LAMP_OVERLOAD first, then the events of the change; the manual gives no order (log 5). -/
def ProvingRecord.classified (r : ProvingRecord) (k : ReadingClass) (autoRecover : Bool) :
    ProvingRecord × List AlarmEvent :=
  match k with
  | .critical => r.critical
  | .high => r.highReading
  | .fail =>
    let a := r.belowHigh
    let b := a.1.failReading
    (b.1, a.2 ++ b.2)
  | .dim =>
    let a := r.belowHigh
    let b := a.1.dimReading
    (b.1, a.2 ++ b.2)
  | .good =>
    let a := r.belowHigh
    let b := a.1.goodReading autoRecover
    (b.1, a.2 ++ b.2)

/-- The circuit's state lets its readings be classified (R128). -/
def ProvingState.classifies : ProvingState → Bool
  | .unproven | .proven | .dim | .failed => true
  | .shorted | .notProvable | .disabled => false

/-- A CURRENT reading that is not blanked (R128): recorded, and classified when the state lets it; a CRITICAL one sets the
lockout (R129). Red status follows (R137), and RED_LOST after the alarms of the circuit; the manual gives no order (log 5). -/
def State.currentReading (s : State) (n : CircuitId) (v : Nat) : State :=
  let r := { s.circuits[n] with lastCurrent := v }
  if r.state.classifies then
    let k := classOf s.cfg n v
    let x := r.classified k (cfgAutoRecover s.cfg n)
    let t := s.setCircuit n x.1
    let t := if k = .critical then t.setDrive n { t.drive.records[n] with lockout := true } else t
    (t.alarmEvents (BitVec.ofNat 8 n.val) x.2).refreshRed
  else s.setCircuit n r

/-- CLEAR_PROVING on a record (R52, R135): the state after and the alarms that clear. -/
def ProvingRecord.cleared (r : ProvingRecord) : ProvingRecord × List AlarmEvent :=
  let zero := { r with fail := 0, dim := 0, good := 0, high := 0, overloaded := false }
  match r.state with
  | .proven => ({ zero with state := .unproven }, [(false, .lampOverload)])
  | .dim => ({ zero with state := .unproven }, [(false, .lampDim), (false, .lampOverload)])
  | .failed => ({ zero with state := .unproven }, [(false, .lampFailed), (false, .lampOverload)])
  | .shorted => ({ zero with state := .unproven }, [(false, .lampShort)])
  | .unproven => (zero, [(false, .lampShort), (false, .lampOverload)])
  | .notProvable => (zero, [(false, .lampShort)])
  | .disabled => (zero, [])

/-- CLEAR_PROVING of one circuit: the lockout is released, the record cleared, the red status worked out afresh (R135). The alarms
of the circuit clear before RED_LOST of its group; the manual gives no order (log 5). -/
def State.clearProving (s : State) (n : CircuitId) : State :=
  let x := s.circuits[n].cleared
  let t := (s.setCircuit n x.1).setDrive n { s.drive.records[n] with lockout := false }
  (t.alarmEvents (BitVec.ofNat 8 n.val) x.2).refreshRed

/-- A circuit whose core enters OPEN or CROSS_FEED becomes NOT_PROVABLE, from any state except DISABLED (R134). The alarms of
the circuit clear before RED_LOST of its group; the manual gives no order (log 5). -/
def State.coreBroken (s : State) (n : CircuitId) : State :=
  match s.circuits[n].state with
  | .disabled => s
  | .notProvable => s
  | .unproven | .proven | .dim | .failed | .shorted =>
    let t := s.setCircuit n
      { s.circuits[n].enter .notProvable with high := 0, overloaded := false }
    (t.alarmEvents (BitVec.ofNat 8 n.val)
      [(false, .lampFailed), (false, .lampDim), (false, .lampOverload)]).refreshRed

/-- A circuit whose core leaves OPEN or CROSS_FEED for another state becomes UNPROVEN (R134). -/
def State.coreMended (s : State) (n : CircuitId) : State :=
  match s.circuits[n].state with
  | .notProvable => (s.setCircuit n (s.circuits[n].enter .unproven)).refreshRed
  | .unproven | .proven | .dim | .failed | .shorted | .disabled => s

/-! ### Core records -/

/-- The alarm that a core state holds (8.7). -/
def CoreState.alarm : CoreState → Option AlarmCode
  | .opened => some .coreOpen
  | .crossFeed => some .coreCrossFeed
  | .leaky => some .coreLeaky
  | .untested => none
  | .sound => none
  | .suspect => none

/-- The state keeps the circuit from being proved (R134). -/
def CoreState.breaks : CoreState → Bool
  | .opened | .crossFeed => true
  | .untested | .sound | .suspect | .leaky => false

/-- A leakage test in flight on this core is cancelled (R151). -/
def Scanner.cancelLeak (x : Scanner) (n : CircuitId) : Scanner :=
  match x.leakTest with
  | some (m, _) => if m = n then { x with leakTest := none } else x
  | none => x

/-- The core takes a new record: alarms follow the states left and entered (8.7), a test in flight is cancelled when the core
is no longer SOUND or LEAKY (R151), the Proving Unit is told of OPEN and CROSS_FEED (R153), and green evidence of CROSS_FEED
(R154). The alarms of the core and then those of its circuit go before green evidence is worked out, and so before CONFLICT is raised:
R148 has all this at one instant and gives no order (log 5). -/
def State.moveCore (s : State) (n : CircuitId) (r : CoreRecord) : State :=
  let old := s.cable.cores[n].state
  let subject := BitVec.ofNat 8 n.val
  let t := s.setCore n r
  if old = r.state then t
  else
    let t := match r.state with
      | .sound => t
      | .leaky => t
      | .untested | .suspect | .opened | .crossFeed => { t with scanner := t.scanner.cancelLeak n }
    let t := t.alarmEvents subject
      (old.alarm.toList.map (fun a => (false, a)) ++ r.state.alarm.toList.map (fun a => (true, a)))
    let t :=
      if r.state.breaks then t.coreBroken n
      else if old.breaks then t.coreMended n
      else t
    if old = .crossFeed || r.state = .crossFeed then t.refreshEvidence else t

/-- A probe return classified (R144, R145): the record after it. -/
def CoreRecord.probed (r : CoreRecord) (valid : Bool) (amplitude width : Nat) : CoreRecord :=
  let r := { r with probe := none, lastAmplitude := amplitude, lastWidth := width }
  if valid then
    let r := { r with miss := 0, valid := satInc r.valid }
    match r.state with
    | .untested | .suspect | .opened =>
      if r.valid = 3 then { r with state := .sound, valid := 0, miss := 0, missTotal := 0 } else r
    | .sound | .leaky | .crossFeed => r
  else
    let r := { r with valid := 0, miss := satInc r.miss, missTotal := satInc r.missTotal }
    match r.state with
    | .untested | .sound | .leaky => { r with state := .suspect, miss := 1, leak := 0, cleanLeak := 0 }
    | .suspect => if r.miss = 4 then { r with state := .opened, valid := 0, miss := 0, leak := 0, cleanLeak := 0 } else r
    | .opened | .crossFeed => r

/-- A return is valid: amplitude at least the threshold, width within the window, limits included (R144). R144 also says that a threshold
of 0 with a window minimum of 0 makes every return valid: that the window maximum is tested then too is the model's choice (log 46). -/
def probeValid (c : Cfg) (n : CircuitId) (amplitude width : Nat) : Bool :=
  cfgThreshold c n ≤ amplitude && cfgWidthMin c n ≤ width && width ≤ cfgWidthMax c n

/-- A VOLTAGE reading classified (R147 to R149): the record after it. `high` tells that it is at or above the limit. -/
def CoreRecord.voltage (r : CoreRecord) (high : Bool) : CoreRecord :=
  match r.state with
  | .crossFeed =>
    if high then { r with quiet := 0 }
    else if r.quiet + 1 ≥ 50 then { r with state := .untested, quiet := 0 }
    else { r with quiet := r.quiet + 1 }
  | .untested | .sound | .suspect | .opened | .leaky =>
    if !high then { r with cross := 0 }
    else if r.cross + 1 ≥ 2 then
      { r with state := .crossFeed, cross := 0, quiet := 0, valid := 0, miss := 0, leak := 0, cleanLeak := 0, probe := none }
    else { r with cross := r.cross + 1 }

/-- A VOLTAGE reading that is not blanked, of an enabled core (R147). -/
def State.voltageReading (s : State) (n : CircuitId) (v : Nat) : State :=
  if cfgCoreEnabled s.cfg n then
    s.moveCore n (s.cable.cores[n].voltage (cfgCrossLimit s.cfg n ≤ v))
  else s

/-- A leakage result classified (R152): the record after it. -/
def CoreRecord.leaked (r : CoreRecord) (high : Bool) (current : Nat) : CoreRecord :=
  let r := { r with lastLeakage := current }
  if high then
    let r := { r with leak := min 2 (r.leak + 1), cleanLeak := 0 }
    if r.state = .sound && r.leak = 2 then { r with state := .leaky, leak := 0, cleanLeak := 0 } else r
  else
    let r := { r with cleanLeak := min 2 (r.cleanLeak + 1), leak := 0 }
    if r.state = .leaky && r.cleanLeak = 2 then { r with state := .sound, leak := 0, cleanLeak := 0, missTotal := 0 } else r

/-- CORE_RETEST on a record (R155): the last readings, off-since, last probe and last leakage test are kept. A probe in flight on a core
that is UNTESTED already is cancelled too, as R53 and R143 say of every core named, where R155 says of such a core that its counts are
cleared and nothing more (log 42). -/
def CoreRecord.retested (r : CoreRecord) : CoreRecord :=
  { r with
    state := .untested, valid := 0, miss := 0, missTotal := 0, cross := 0, quiet := 0, leak := 0, cleanLeak := 0
    probe := none }

/-- CORE_RETEST of one core (R155): a test in flight on it is cancelled whatever its state. -/
def State.coreRetest (s : State) (n : CircuitId) : State :=
  ({ s with scanner := s.scanner.cancelLeak n }).moveCore n s.cable.cores[n].retested

/-! ### Switching outputs (R94) -/

/-- A core's record when its circuit is switched (R140, R143): ON cancels a probe, OFF records off-since. -/
def CoreRecord.switched (r : CoreRecord) (on : Bool) (stamp : Nat) : CoreRecord :=
  if on then { r with probe := none } else { r with offSince := stamp }

/-- A circuit is switched: applied and changed-at (R94), its core's off-since or probe (R140, R143), a test in flight on it
(R151). -/
def State.switch (s : State) (n : CircuitId) (on : Bool) : State :=
  let t := s.setDrive n { s.drive.records[n] with applied := on, changedAt := s.drive.halfCycles, before := none }
  let t := t.setCore n (t.cable.cores[n].switched on s.stamp)
  if on then { t with scanner := t.scanner.cancelLeak n } else t

/-- Every circuit whose applied state differs from its target is switched, then green evidence is worked out afresh (R94,
R157). -/
def State.applyTargets (s : State) : State :=
  (circuitIds.foldl
    (fun s n => if s.drive.records[n].applied = s.target n then s else s.switch n (s.target n)) s).refreshEvidence

/-- How a circuit stood before this instant: as it stands, unless it has been switched at once at this very instant (R126, log 43). -/
def State.standing (s : State) (n : CircuitId) : Standing :=
  let now : Standing :=
    { instant := s.now, applied := s.drive.records[n].applied, changedAt := s.drive.records[n].changedAt
      offSince := s.cable.cores[n].offSince }
  match s.drive.records[n].before with
  | some b => if b.instant = s.now then b else now
  | none => now

/-- Each circuit that has been switched since `s` keeps how it stood before this instant (R126, log 43). -/
def State.remember (t s : State) : State :=
  { t with drive := { t.drive with records := Vector.ofFn (fun n =>
      if t.drive.records[n].applied = s.drive.records[n].applied then t.drive.records[n]
      else { t.drive.records[n] with before := some (s.standing n) }) } }

/-- While mains is lost a change of target applies at the instant it is made (R94), with the half-cycle count as it stands. -/
def State.applyLost (s : State) : State :=
  match s.scanner.mains with
  | .lost => s.applyTargets.remember s
  | .present => s

/-- The drive record without a switch made at once at the instant `now` (R126, log 43). -/
def DriveRecord.takenBack (r : DriveRecord) (now : Nat) : DriveRecord :=
  match r.before with
  | some b =>
    if b.instant = now then { r with applied := b.applied, changedAt := b.changedAt, before := none }
    else { r with before := none }
  | none => r

/-- The core of that circuit: off-since as it was; a circuit that stays ON has no probe in flight (R143, R126, log 43). -/
def CoreRecord.takenBack (k : CoreRecord) (r : DriveRecord) (now : Nat) : CoreRecord :=
  match r.before with
  | some b =>
    if b.instant = now then { k with offSince := b.offSince, probe := if b.applied then none else k.probe } else k
  | none => k

/-- The mark that ends a loss of mains takes back what was switched at once at its own instant, so that it applies those changes
itself: a change of target made at that instant and taken first is applied at that mark (R126, log 43). -/
def State.takeBack (s : State) : State :=
  { s with
    drive := { s.drive with records := Vector.ofFn (fun n => s.drive.records[n].takenBack s.now) }
    cable := { s.cable with cores := Vector.ofFn (fun n => s.cable.cores[n].takenBack s.drive.records[n] s.now) } }

/-- Outputs switched by DRIVE_EN are applied at once and not at a mark (R96, R124): none of them is taken back (log 43). -/
def State.forget (s : State) : State :=
  { s with drive := { s.drive with records := Vector.ofFn (fun n => { s.drive.records[n] with before := none }) } }

end Sys2Proof.Machine
end

