-- ==== Sys2Proof/Machine/Stages.lean ====
section
/-! DEFINITION. The Junction Sequencer's own operations (ch6): stage changes, MIN, step ends, the scan of a plan, plan
switches, forced operation; and demand and extension events (ch2). -/

namespace Sys2Proof.Machine

/-! ### MIN and stage changes -/

/-- MIN begins (R106): step start, minimum expiry from the step or the forced minimum; the current stage leaves the demand
register. -/
def State.minStart (s : State) : State :=
  match s.seq.stage with
  | none => s
  | some t =>
    let least := if s.seq.force = .none then cfgStepMin s.cfg s.seq.currentPlan s.seq.pointer else cfgForcedMin s.cfg t
    { s with
      seq := { s.seq with step := .min, stepStart := some s.stamp, minExpiry := some (s.stamp + least), deadline := none }
      demand := { s.demand.noHeld with register := setRemove s.demand.register t } }

/-- The stage change is complete (R105): every target group is in GREEN with no gain request, no other group is in AMBER or
GREEN_FLASH. -/
def State.changeComplete (s : State) (t : Nat) : Bool :=
  groupIds.all (fun g =>
    let x := s.groups[g]
    if cfgInStage s.cfg t g then x.aspect = .green && x.gain.isNone
    else x.aspect != .amber && x.aspect != .greenFlash)

/-- A stage change in ENTER that is complete begins MIN (R105, R106). -/
def State.completeStage (s : State) : State :=
  match s.seq.mode, s.seq.step, s.seq.stage with
  | .run, .enter, some t => if s.changeComplete t then s.minStart else s
  | _, _, _ => s

/-- The requests of a stage change to stage t (R104, actions 3 to 5): every TERMINATE, then every RETURN_RED, then every
GAIN. -/
def State.changeRequests (s : State) (t : Nat) : State :=
  let c := s.cfg
  let s := groupIds.foldl
    (fun s g =>
      if !cfgInStage c t g && (s.groups[g].aspect.rightOfWay || s.groups[g].aspect = .amber) then s.terminate g else s) s
  let s := groupIds.foldl
    (fun s g =>
      if !cfgInStage c t g && (s.groups[g].aspect = .redAmber || (s.groups[g].aspect = .red && s.groups[g].gain.isSome))
      then s.returnRed g else s) s
  groupIds.foldl (fun s g => if cfgInStage c t g then s.gain g else s) s

/-- A stage change to stage t begins (R104); `leaving` tells that it leaves the current stage, which is then reported. A
change that is complete at once begins MIN at once (R105). -/
def State.changeStage (s : State) (leaving : Bool) (t : Nat) : State :=
  let s :=
    match leaving, s.seq.stage with
    | true, some old => s.stageEnd old
    | _, _ => s
  let s :=
    { s with
      seq := { s.seq with
        stage := some t, step := .enter, stepStart := none, minExpiry := none, deadline := none }
      demand := s.demand.noHeld }
  (s.changeRequests t).completeStage

/-! ### Step ends (R108 to R110) -/

/-- Step k of a plan qualifies: it is not demand-dependent, or its stage is in the demand register (R108). -/
def State.qualifies (s : State) (plan k : Nat) : Bool :=
  !cfgStepDemanded s.cfg plan k || setHas s.demand.register (cfgStepStage s.cfg plan k)

/-- Step k of the current plan is chosen (R108): MIN at once when its stage is the current stage, else a stage change. -/
def State.chooseStep (s : State) (k : Nat) : State :=
  let t := cfgStepStage s.cfg s.seq.currentPlan k
  let s' := { s with seq := { s.seq with pointer := k, force := .none, switchKept := false } }
  if s.seq.stage = some t then s'.minStart else s'.changeStage true t

/-- The sequencer rests (R109). R109 does not say what the step start, the minimum expiry and the extension deadline hold then: they keep
their values, which is the model's reading (log 31). -/
def State.beginRest (s : State) : State :=
  { s with seq := { s.seq with step := .rest, switchKept := false }, demand := s.demand.noHeld }

/-- A plan switch (R110): the pending plan, or the isolated plan under the isolated switch, is scanned from step 0; step 0 is
chosen when none qualifies. -/
def State.planSwitch (s : State) : State :=
  let plan :=
    if s.seq.isolatedSwitch then cfgIsolatedPlan s.cfg
    else s.seq.pendingPlan.getD s.seq.currentPlan
  let s := { s with seq := { s.seq with currentPlan := plan, pendingPlan := none, isolatedSwitch := false } }
  match (List.range (cfgPlanLength s.cfg plan)).find? (s.qualifies plan) with
  | some k => s.chooseStep k
  | none => s.chooseStep 0

/-- The scan of R108 from the step after the pointer. At the cycle boundary a pending plan makes a plan switch (R110, log 17),
but for a scan under the force state RELEASED, at which it waits (R115, log 25); with the force state RELEASED the step at the
pointer is tested last. -/
def State.scanPlan (s : State) : State :=
  let plan := s.seq.currentPlan
  let steps := List.range (cfgPlanLength s.cfg plan)
  let ahead := steps.filter (fun k => s.seq.pointer < k)
  let wrapped := steps.filter (fun k => k < s.seq.pointer) ++
    (if s.seq.force = .released then steps.filter (fun k => k = s.seq.pointer) else [])
  match ahead.find? (s.qualifies plan) with
  | some k => s.chooseStep k
  | none =>
    if s.seq.pendingPlan.isSome && s.seq.force = .none then s.planSwitch
    else
      match wrapped.find? (s.qualifies plan) with
      | some k => s.chooseStep k
      | none => s.beginRest

/-- A step end (R108): a plan switch under the isolated switch, else the scan. None is taken while a transfer is CLEARING
(R70). -/
def State.stepEnd (s : State) : State :=
  match s.seq.transfer with
  | .clearing => s
  | .none | .awaiting => if s.seq.isolatedSwitch then s.planSwitch else s.scanPlan

/-- The sequencer is in a rest that is not a forced one (R109). -/
def State.restsUnforced (s : State) : Bool := s.seq.mode = .run && s.seq.step = .rest && s.seq.force != .forced

/-- A step end is taken in REST: the rest is not a forced one, HOLD is no and no transfer is in progress (R70, R109). -/
def State.restOpen (s : State) : Bool := s.restsUnforced && !s.seq.hold && s.seq.transfer = .none

/-- A stage has joined the demand register (R109, first row): in a rest the scan of R108 is made again, as a step end. A pending
plan that has waited since forced operation goes on waiting (R115, log 25). -/
def State.restScan (s : State) : State := if s.restOpen then s.stepEnd else s

/-- A pending plan has been set (R109, second row): in a rest the plan switch of R110 is made at once; under HOLD it is kept for the
end of HOLD (log 44). -/
def State.restSwitch (s : State) : State :=
  if s.restOpen then s.planSwitch
  else if s.restsUnforced && s.seq.hold then { s with seq := { s.seq with switchKept := true } }
  else s

/-- The step end of EXTEND has fallen due (R107): the deadline is none or has been reached. -/
def State.extendDue (s : State) : Bool :=
  s.seq.mode = .run && s.seq.step = .extend &&
    match s.seq.deadline with
    | none => true
    | some d => d ≤ s.timeBase

/-- HOLD has become no: a step end that fell due in EXTEND, or that HOLD kept back in REST, is taken at this instant, a kept plan
switch as one (R107, R109). -/
def State.holdEnded (s : State) : State :=
  if s.extendDue then s.stepEnd
  else if s.restOpen && s.seq.switchKept then s.planSwitch
  else s.restScan

/-- Acting on a FORCE of stage t (R114): the force state becomes FORCED; MIN at once when t is the current stage, else a stage
change. -/
def State.actForce (s : State) (t : Nat) : State :=
  let s' := { s with seq := { s.seq with pendingForce := none, force := .forced, switchKept := false } }
  if s.seq.stage = some t then s'.minStart else s'.changeStage true t

/-! ### Demand events (R36, R39, R106) -/

/-- An extension event for the running stage (R106): taken in MIN or EXTEND of a plan step, else discarded; the deadline is now
plus the extension unit, at most step start plus max. -/
def State.extensionEvent (s : State) : State :=
  match s.runningStage, s.seq.force, s.seq.stepStart with
  | some _, .none, some t0 =>
    let unit := cfgStepExtension s.cfg s.seq.currentPlan s.seq.pointer
    let cap := t0 + cfgStepMax s.cfg s.seq.currentPlan s.seq.pointer
    { s with seq := { s.seq with deadline := some (min (s.stamp + unit) cap) } }
  | _, _, _ => s

/-- The stages of a set but for the running stage (R39). -/
def stagesBut (set : Half) (running : Option Nat) : Half :=
  match running with
  | none => set
  | some t => setRemove set t

/-- A demand event on a line (R38, R39): an enabled line adds the stages of its set that are not running to the demand
register, sends an extension event when it extends and its set holds the running stage, and ends a rest when a stage joins
(R109, log 19). -/
def State.demandEvent (s : State) (d : LineId) : State :=
  if cfgLineEnabled s.cfg d then
    let set := cfgLineStages s.cfg d
    let register := s.demand.register ||| stagesBut set s.runningStage
    let extends_ := cfgLineExtends s.cfg d && s.runningStage.any (fun t => setHas set t)
    let s' := { s with demand := { s.demand with register := register } }
    let s' := if extends_ then s'.extensionEvent else s'
    if register = s.demand.register then s' else s'.restScan
  else s

/-- Lines raised in order from D0 upward, each one demand event (R34, R41). -/
def State.raiseLines (s : State) (word : Half) : State :=
  lineIds.foldl (fun s d => if setHas word d.val then s.demandEvent d else s) s

end Sys2Proof.Machine
end

