-- ==== Sys2Proof/Machine/Activation.lean ====
section
/-! DEFINITION. The activation of a configuration (4.4, 4.5): the swap, the transfer, and `settle`, what follows at once
from a change of aspects, mode or targets. -/

namespace Sys2Proof.Machine

/-! ### The swap (R69, R72) -/

/-- A circuit record set afresh by a configuration (R69, R127, R136): the last current is kept. -/
def ProvingRecord.fresh (enabled : Bool) (lastCurrent : Nat) : ProvingRecord :=
  { state := if enabled then .unproven else .disabled, fail := 0, dim := 0, good := 0, high := 0, overloaded := false,
    lastCurrent := lastCurrent }

/-- Every circuit at the swap: its alarms clear as under CLEAR_PROVING, its record is set afresh, its lockout released (R69,
R135). -/
def State.swapCircuits (s : State) : State :=
  let t := circuitIds.foldl (fun t n => t.alarmEvents (BitVec.ofNat 8 n.val) s.circuits[n].cleared.2) s
  { t with
    circuits := Vector.ofFn (fun n => ProvingRecord.fresh (cfgProvingEnabled t.cfg n) t.circuits[n].lastCurrent)
    drive := { t.drive with
      records := Vector.ofFn (fun n => { t.drive.records[n] with lockout := false }) } }

/-- Every core at the swap: its alarm clears and its record is set as under CORE_RETEST; tests in flight are cancelled (R69,
R155). -/
def State.swapCores (s : State) : State :=
  let t := circuitIds.foldl
    (fun t n => t.alarmEvents (BitVec.ofNat 8 n.val) (s.cable.cores[n].state.alarm.toList.map (fun a => (false, a)))) s
  { t with
    cable := { t.cable with cores := Vector.ofFn (fun n => t.cable.cores[n].retested) }
    scanner := { t.scanner with leakTest := none } }

/-- A group at the swap takes its new kind; its withholding, timer and gain request go, its green-end time stays; an UNUSED
group is DARK (R69, R72). -/
def Group.swapped (x : Group) (kind : GroupKind) : Group :=
  { x.plain with kind := kind, timer := none, aspect := if kind = .unused then .dark else x.aspect }

/-- A plan number kept when that plan has steps in the new configuration, else the new isolated plan (R69). -/
def keptPlan (c : Cfg) (p : Nat) : Nat := if 1 ≤ cfgPlanLength c p then p else cfgIsolatedPlan c

/-- The sequencer at the swap (R69). -/
def Sequencer.swapped (q : Sequencer) (c : Cfg) : Sequencer :=
  { q with
    hold := false, pendingForce := none, force := .none, pendingPlan := none, switchKept := false, transfer := .none
    pointer := 0
    currentPlan := if q.control = .isolated then cfgIsolatedPlan c else keptPlan c q.currentPlan
    supervisedPlan := keptPlan c q.supervisedPlan }

/-- The tables at the swap: staging becomes active, the activation NONE, the demand register empty, the sequencer and the kinds
of the groups as R69 states. -/
def State.swapTables (s : State) : State :=
  let c : Cfg := some s.mgmt.staging
  { s with
    mgmt := { s.mgmt with active := c, activation := .none }
    demand := { s.demand.noHeld with register := 0 }
    seq := s.seq.swapped c
    groups := Vector.ofFn (fun g => s.groups[g].swapped (cfgKind c g)) }

/-- The cause NONE of a return to normal control, or another cause that no running fallback wrote (R161). -/
def State.causeOnly (s : State) (cause : Cause) : Fallback := s.written cause 255 false

/-- The mode after the swap with its aspects (R72). -/
def State.swapMode (s : State) : State :=
  match s.seq.mode with
  | .run => s.enterStart s.fallback
  | .allRed => s.enterStart s.fallback
  | .start => s.enterStart s.fallback
  | .failRed =>
    let t := s.showRed
    { t with fallback := { t.fallback with failRed := .running (t.loadTimer (cfgFailRed t.cfg)) } }
  | .flash => s.showFlash
  | .dark =>
    if s.fallback.cause.cause = .configEmpty && s.drive.driveEn && !s.fallback.latch then
      s.enterStart (s.causeOnly .none)
    else if s.fallback.cause.cause = .configEmpty && !s.drive.driveEn then
      (s.shift .dark (s.causeOnly .driveOff)).showDark
    else s.showDark

/-- Every group's evidence worked out afresh without a test (R158, at the swap). -/
def State.swapEvidence (s : State) : State :=
  { s with groups := Vector.ofFn (fun g => { s.groups[g] with evidence := s.evidenceOf g }) }.dropEndedPairs

/-- Every pair of the new matrix with evidence on both sides is detected as a conflict of its own, lowest subject first: a second one
finds the latch set (R158, R159, log 16). -/
def State.swapConflicts (s : State) : State := s.pairsInEvidence.foldl (fun s p => s.conflictDetected [p]) s

/-- The swap (R69): the new configuration comes into force. The alarms clear in the order lamp alarms, core alarms, RED_LOST,
CONFIG_EMPTY; the manual gives none (log 5). -/
def State.swap (s : State) : State :=
  let t := s.swapTables.swapCircuits.swapCores.refreshRed
  (t.clear .configEmpty 255).swapMode.swapEvidence.swapConflicts

/-! ### The transfer (R70) -/

/-- CLEARING is entered: groups are cleared to red, a pending FORCE is dropped (R70, R71). -/
def State.beginClearing (s : State) : State :=
  { s with seq := { s.seq with transfer := .clearing, pendingForce := none } }.clearToRed

/-- The activation becomes PENDING (R68, R70): in RUN the transfer awaits the minimum, or clears at once when it has expired;
in ALL_RED it clears at once. -/
def State.activationPending (s : State) : State :=
  let s := { s with mgmt := { s.mgmt with activation := .pending } }
  match s.seq.mode with
  | .run =>
    match s.seq.step with
    | .extend => s.beginClearing
    | .rest => s.beginClearing
    | .none => { s with seq := { s.seq with transfer := .awaiting } }
    | .enter => { s with seq := { s.seq with transfer := .awaiting } }
    | .min => { s with seq := { s.seq with transfer := .awaiting } }
  | .allRed => s.beginClearing
  | .dark => s
  | .start => s
  | .failRed => s
  | .flash => s

/-- A PENDING activation is carried out when its mode lets it (R68, R70). -/
def State.activate (s : State) : State :=
  match s.mgmt.activation with
  | .none => s
  | .pending =>
    match s.seq.mode with
    | .dark => s.swap
    | .flash => s.swap
    | .start => s.swap
    | .failRed => if s.allRedOrDark then s.swap else s
    | .run => if s.seq.transfer = .clearing && s.allUsedRed then s.swap else s
    | .allRed => if s.seq.transfer = .clearing && s.allUsedRed then s.swap else s

/-! ### Settling -/

/-- The fail-red timer starts when every used group is RED (R164). -/
def State.runFailRed (s : State) : State :=
  match s.fallback.failRed with
  | .waiting =>
    if s.allUsedRed then
      { s with fallback := { s.fallback with failRed := .running (s.loadTimer (cfgFailRed s.cfg)) } }
    else s
  | .none => s
  | .running _ => s

/-- What a change of aspects, mode or targets brings at the same instant: a stage change completes (R105), the fail-red timer
runs (R164), a PENDING activation is carried out (R68), outputs follow at once while mains is lost (R94). -/
def State.settleOnce (s : State) : State := s.completeStage.runFailRed.activate.applyLost

/-- Settling until nothing more follows: a change of outputs while mains is lost may release a group, whose entry may complete
a stage change or bring a conflict, and so on; no chain is longer than three. That it follows the whole of the step's own effect, and in
the order of `settleOnce`, is the model's choice (log 5). -/
def State.settle (s : State) : State := s.settleOnce.settleOnce.settleOnce

end Sys2Proof.Machine
end

