-- ==== Sys2Proof/Machine/Calls.lean ====
section
/-! DEFINITION. The answers to CALL frames (R112 to R120, R122, R41, R71, R166, R167): for each command its verdict and the
state after it; then the whole answer to a CALL payload. -/

namespace Sys2Proof.Machine

/-- A transfer is in progress (R70, R112 test 3). -/
def State.inTransfer (s : State) : Bool := s.seq.transfer != .none

/-- The control source is ISOLATED. -/
def State.isolated (s : State) : Bool := s.seq.control = .isolated

/-- PLAN n (R113): REFUSED under ISOLATED, RANGE for a number above 3 or an empty plan; otherwise the pending plan and the
supervised plan become n, and a rest ends (R109). R113 also gives RANGE while the configuration is EMPTY, when the control source is
ISOLATED: that R112's order, REFUSED before RANGE, then stands is the model's choice (log 47). -/
def State.answerPlan (s : State) (n : Byte) : Verdict × State :=
  if s.inTransfer then (.busy, s)
  else if s.isolated then (.refused, s)
  else if 3 < n.toNat || cfgPlanLength s.cfg n.toNat = 0 then (.range, s)
  else (.taken, { s with seq := { s.seq with pendingPlan := some n.toNat, supervisedPlan := n.toNat } }.restSwitch)

/-- FORCE s (R114): acted on at once in EXTEND and REST, else it waits for the minimum expiry. -/
def State.answerForce (s : State) (n : Byte) : Verdict × State :=
  if s.inTransfer then (.busy, s)
  else if s.isolated || s.seq.mode != .run then (.refused, s)
  else if 15 < n.toNat then (.range, s)
  else
    (.taken,
      match s.seq.step with
      | .extend => s.actForce n.toNat
      | .rest => s.actForce n.toNat
      | .none => { s with seq := { s.seq with pendingForce := some n.toNat } }
      | .enter => { s with seq := { s.seq with pendingForce := some n.toNat } }
      | .min => { s with seq := { s.seq with pendingForce := some n.toNat } })

/-- HOLD (R116). -/
def State.answerHold (s : State) : Verdict × State :=
  if s.inTransfer then (.busy, s)
  else if s.isolated || s.seq.mode != .run then (.refused, s)
  else (.taken, { s with seq := { s.seq with hold := true } })

/-- HOLD and the pending FORCE go, FORCED becomes RELEASED (R117, R121). -/
def Sequencer.released (q : Sequencer) : Sequencer :=
  { q with
    hold := false, pendingForce := none
    force := match q.force with
      | .forced => .released
      | .released => .released
      | .none => .none }

/-- What follows when a HOLD or a forced rest has ended; `before` is the sequencer before (R107, R109, R117, R121): the scan of
a forced rest, or a step end that HOLD kept back. -/
def State.afterRelease (s : State) (before : Sequencer) : State :=
  if before.force = .forced && s.seq.mode = .run && s.seq.step = .rest then s.stepEnd
  else if before.hold then s.holdEnded
  else s

/-- RELEASE (R117): TAKEN in every mode and under both control sources. -/
def State.answerRelease (s : State) : Verdict × State :=
  if s.inTransfer then (.busy, s)
  else (.taken, { s with seq := s.seq.released }.afterRelease s.seq)

/-- The sequencer's own fields when ALL_RED is taken in RUN (R118). -/
def Sequencer.toAllRed (q : Sequencer) : Sequencer :=
  { q with
    mode := .allRed, resumeStep := some q.pointer, step := .none, stage := none, stepStart := none, minExpiry := none
    deadline := none, pendingForce := none, force := .none, switchKept := false
    transfer := match q.transfer with
      | .none => .none
      | .awaiting => .clearing
      | .clearing => .clearing }

/-- ALL_RED (R118, R71). -/
def State.answerAllRed (s : State) : Verdict × State :=
  match s.seq.mode with
  | .run => (.taken, { s with seq := s.seq.toAllRed, demand := s.demand.noHeld }.clearToRed)
  | .allRed => (.taken, s)
  | .dark => (.refused, s)
  | .start => (.refused, s)
  | .failRed => (.refused, s)
  | .flash => (.refused, s)

/-- RESUME from ALL_RED (R119): RUN again at the resume step, with a stage change that leaves no stage. -/
def State.resumeRun (s : State) : State :=
  let k := s.seq.resumeStep.getD s.seq.pointer
  { s with seq := { s.seq with mode := .run, pointer := k, resumeStep := none } }.changeStage false
    (cfgStepStage s.cfg s.seq.currentPlan k)

/-- RESUME that restores SUPERVISED (R119). While the junction rests the pending plan is taken at once (R109, log 18), after
SUPERVISION_LOST has cleared; the manual gives no order (log 5). -/
def State.resumeSupervised (s : State) : State :=
  ({ s with
    seq := { s.seq with control := .supervised, pendingPlan := some s.seq.supervisedPlan, isolatedSwitch := false }
    }.clear .supervisionLost 255).restSwitch

/-- Every ACTIVE STALL alarm clears (R167). -/
def State.clearStalls (s : State) : State :=
  (s.alarms.list.filter (fun e => e.code = .stall && e.active)).foldl (fun s e => s.clear .stall e.subject) s

/-- A RESUME from FLASH or DARK is refused (R167). -/
def State.resumeRefused (s : State) : Bool :=
  s.fallback.latch || groupIds.any (fun g => s.used g && s.groups[g].redStatus = .lost) || cfgEmpty s.cfg ||
    !s.drive.driveEn

/-- RESUME from FLASH or DARK (R167): cause NONE, START, alarm FALLBACK and the STALL alarms clear. FALLBACK clears first, then the STALL
alarms in list order; the manual gives no order (log 5). -/
def State.resumeFallback (s : State) : State := (s.enterStart (s.causeOnly .none)).clearStalls

/-- RESUME (R119, R167). -/
def State.answerResume (s : State) : Verdict × State :=
  if s.inTransfer then (.busy, s)
  else
    match s.seq.mode with
    | .allRed => (.taken, s.resumeRun)
    | .run =>
      if !s.isolated then (.taken, s)
      else if s.ring.line.state = .up then (.taken, s.resumeSupervised)
      else (.refused, s)
    | .start => (.refused, s)
    | .failRed => (.refused, s)
    | .flash => if s.resumeRefused then (.refused, s) else (.taken, s.resumeFallback)
    | .dark => if s.resumeRefused then (.refused, s) else (.taken, s.resumeFallback)

/-- The commanded cause, unless the conflict latch is set: then CONFLICT is kept (R166). -/
def State.commandedCause (s : State) : Fallback :=
  if s.fallback.latch then s.fallback else s.written .commanded 255 true

/-- CALL FLASH (R166). -/
def State.answerFlash (s : State) : Verdict × State :=
  match s.seq.mode with
  | .start => (.taken, s.toFlash s.commandedCause)
  | .run => (.taken, s.toFlash s.commandedCause)
  | .allRed => (.taken, s.toFlash s.commandedCause)
  | .failRed => (.taken, s.toFlash s.commandedCause)
  | .flash => (.taken, s)
  | .dark => (.refused, s)

/-- CALL DARK (R166). -/
def State.answerDark (s : State) : Verdict × State :=
  match s.seq.mode with
  | .start => (.taken, s.toDark s.commandedCause)
  | .run => (.taken, s.toDark s.commandedCause)
  | .allRed => (.taken, s.toDark s.commandedCause)
  | .failRed => (.taken, s.toDark s.commandedCause)
  | .flash => (.taken, s.toDark s.commandedCause)
  | .dark => (.taken, s)

/-- CALL DEMAND (R41): the lines of the word in payload bytes 1 and 2 are raised. -/
def State.answerDemand (s : State) (hi lo : Byte) : Verdict × State := (.taken, s.raiseLines (halfOf hi lo))

/-- CALL TIME (R122): the clock takes the value, its next increment comes one second later. -/
def State.answerTime (s : State) (v : Word) : Verdict × State :=
  (.taken, { s with seq := { s.seq with clock := v, clockSince := s.now } })

/-- The supervision timer restarts (R120): its expiry is this instant plus the supervision period. -/
def State.restartSupervision (s : State) : State :=
  if s.isolated then s
  else { s with seq := { s.seq with supervision := some (s.stamp + 10 * cfgSupervisionPeriod s.cfg) } }

/-- What a TAKEN CALL brings beside its own effect: the supervision timer restarts under SUPERVISED (R120, log 29), and what
follows at the same instant. -/
def callDone (r : Verdict × State) : Verdict × State :=
  match r.1 with
  | .taken => (.taken, r.2.restartSupervision.settle)
  | v => (v, r.2)

/-- The command of a CALL payload: its code and the bytes it needs (R112 tests 1 and 2; bytes beyond them are ignored). -/
def State.callCommand (s : State) (payload : List Byte) : Verdict × State :=
  match payload with
  | [] => (.range, s)
  | code :: args =>
    if code = callPlan then
      match args with
      | n :: _ => s.answerPlan n
      | [] => (.range, s)
    else if code = callForce then
      match args with
      | n :: _ => s.answerForce n
      | [] => (.range, s)
    else if code = callHold then s.answerHold
    else if code = callRelease then s.answerRelease
    else if code = callAllRed then s.answerAllRed
    else if code = callFlash then s.answerFlash
    else if code = callDark then s.answerDark
    else if code = callResume then s.answerResume
    else if code = callDemandCode then
      match args with
      | hi :: lo :: _ => s.answerDemand hi lo
      | _ => (.range, s)
    else if code = callTime then
      match args with
      | a :: b :: c :: d :: _ => s.answerTime (wordOf a b c d)
      | _ => (.range, s)
    else (.range, s)

/-- The answer to a CALL payload from the supervisor. -/
def State.callAnswer (s : State) (payload : List Byte) : Verdict × State := callDone (s.callCommand payload)

end Sys2Proof.Machine
end

