-- ==== Sys2Proof/Machine/TableSpace.lean ====
section
/-! DEFINITION. The table space (ch3): windows, what a PEEK reads (R44, R45, ch11), the tests and the effects of a LOAD (R46
to R57). -/

namespace Sys2Proof.Machine

/-! ### Windows (R43) -/

/-- A window of the table space: its first and last address. -/
structure Window where
  first : Nat
  last : Nat
deriving DecidableEq, Repr

def identityWindow : Window := ⟨0x0000, 0x00FF⟩
def controlWindow : Window := ⟨0x0100, 0x01FF⟩
def statusWindow : Window := ⟨0x0200, 0x02FF⟩
def countersWindow : Window := ⟨0x0300, 0x03FF⟩
def provingWindow : Window := ⟨0x0400, 0x04BF⟩
def coresWindow : Window := ⟨0x0500, 0x05BF⟩
def alarmWindow : Window := ⟨0x0600, 0x077F⟩
def stagingWindow : Window := ⟨0x1000, 0x1FFF⟩
def activeWindow : Window := ⟨0x2000, 0x2FFF⟩

/-- Every window (R43). -/
def windows : List Window :=
  [identityWindow, controlWindow, statusWindow, countersWindow, provingWindow, coresWindow, alarmWindow, stagingWindow,
   activeWindow]

/-- An address lies in a window. -/
def Window.has (w : Window) (a : Nat) : Bool := w.first ≤ a && a ≤ w.last

/-- A span lies in a window: its first and its last byte do (R43). -/
def Span.inside (p : Span) (w : Window) : Bool := w.has p.start && w.has (p.start + p.count - 1)

/-- The span leaves its window (R43). -/
def Span.leaves (p : Span) : Bool := !windows.any (fun w => p.inside w)

/-! ### What a PEEK reads (R45) -/

/-- Byte i of a 16-bit value. -/
def halfByte (h : Half) (i : Nat) : Byte := if i = 0 then hiByte h else loByte h

/-- Byte i of a 32-bit value. -/
def wordByte (w : Word) (i : Nat) : Byte := (wordBytes w)[i]?.getD 0

/-- The identity window (11.2). -/
def State.identityByte (s : State) (a : Nat) : Byte :=
  match a with
  | 0 => 0x4A | 1 => 0x38 | 2 => 0x32 | 3 => 0x34
  | 4 => 1
  | 5 => s.ownId
  | 6 => s.mgmt.ident.setWidth 8
  | 7 => bitByte s.mgmt.bench
  | 8 => bitByte s.drive.pin.level
  | _ => 0

/-- The control window (11.3): the protection mask and the management status. -/
def State.controlByte (s : State) (a : Nat) : Byte :=
  match a with
  | 0x109 => hiByte s.mgmt.mask
  | 0x10A => loByte s.mgmt.mask
  | 0x110 => bitByte s.mgmt.protectedWrite ||| (bitByte s.mgmt.protectClearRefused <<< 1)
  | 0x111 => s.mgmt.store.value
  | 0x112 => s.mgmt.activation.value
  | 0x113 => s.mgmt.stationReset.value
  | 0x114 => bitByte s.mgmt.bench
  | 0x115 => s.mgmt.checkCode
  | 0x116 => s.mgmt.checkSubject
  | _ => 0

/-- Deciseconds from a stored instant to now, saturating at 65535 (11.2). An instant is recorded at the next decisecond step (R76): that
its age reads 0 until then is the model's choice, 11.2 does not say (log 49). -/
def State.age (s : State) (x : Nat) : Half := halfValue (s.timeBase - x)

/-- Byte b of a group record (11.2). That a wait for an earliest green of more than 65535 ds reads 65535 is the model's choice: 11.2 speaks
of saturation for the ages alone (log 51). -/
def State.groupByte (s : State) (g : GroupId) (b : Nat) : Byte :=
  let x := s.groups[g]
  let left : Half := match x.timer with
    | none => 0
    | some t => halfValue (s.timerLeft t)
  let wait : Half := match x.gain with
    | none => 0
    | some e => halfValue (e - s.timeBase)
  let since : Half := match x.withheld, x.withheldSince with
    | true, some t => s.age t
    | _, _ => 0
  match b with
  | 0 => x.kind.value
  | 1 => x.aspect.value
  | 2 => bitByte x.timer.isSome ||| (bitByte x.gain.isSome <<< 1) ||| (bitByte x.withheld <<< 2) ||| (bitByte x.evidence <<< 3)
  | 3 => x.redStatus.value
  | 4 => hiByte left | 5 => loByte left
  | 6 => hiByte wait | 7 => loByte wait
  | 8 => hiByte (s.age x.greenEnd) | 9 => loByte (s.age x.greenEnd)
  | 10 => hiByte since | 11 => loByte since
  | _ => 0

/-- Byte b of a drive record (11.2). -/
def State.driveByte (s : State) (n : CircuitId) (b : Nat) : Byte :=
  let r := s.drive.records[n]
  let low : Half := r.changedAt.setWidth 16
  match b with
  | 0 => (s.commanded n).value
  | 1 => bitByte r.applied ||| (bitByte r.lockout <<< 1)
  | 2 => hiByte low
  | 3 => loByte low
  | _ => 0

/-- The levels of D8 to D15, bit n for D(8+n) (R36, 11.2). -/
def State.levels (s : State) : Byte :=
  contactIds.foldl (fun b k => if s.demand.contacts[k].closed then b ||| ((1 : Byte) <<< k.val) else b) 0

/-- The junction status window (11.2). -/
def State.statusByte (s : State) (a : Nat) : Byte :=
  if h : 0x220 ≤ a ∧ a < 0x2A0 then s.groupByte ⟨(a - 0x220) / 16, by omega⟩ ((a - 0x220) % 16)
  else if h : 0x2A0 ≤ a ∧ a < 0x300 then s.driveByte ⟨(a - 0x2A0) / 4, by omega⟩ ((a - 0x2A0) % 4)
  else if 0x20C ≤ a ∧ a < 0x210 then wordByte s.seq.clock (a - 0x20C)
  else if 0x212 ≤ a ∧ a < 0x216 then wordByte s.fallback.cause.time (a - 0x212)
  else if 0x218 ≤ a ∧ a < 0x21C then wordByte s.fallback.last.time (a - 0x218)
  else
    match a with
    | 0x200 => s.seq.mode.value
    | 0x201 => s.seq.control.value
    | 0x202 => BitVec.ofNat 8 s.seq.currentPlan
    | 0x203 => match s.seq.pendingPlan with
      | none => 255
      | some p => BitVec.ofNat 8 p
    | 0x204 => BitVec.ofNat 8 s.seq.pointer
    | 0x205 => s.seq.step.value
    | 0x206 => hiByte s.demand.register
    | 0x207 => loByte s.demand.register
    | 0x208 => s.levels
    | 0x209 => s.ring.line.state.value
    | 0x20A => s.ring.line.polarity.value
    | 0x210 => s.fallback.cause.cause.value
    | 0x211 => s.fallback.cause.subject
    | 0x216 => s.fallback.last.cause.value
    | 0x217 => s.fallback.last.subject
    | _ => 0

/-- The counters window (11.2). -/
def State.counterByte (s : State) (a : Nat) : Byte :=
  let c := s.ring.counters
  let k := s.classifier
  match a with
  | 0x300 => c.runt | 0x301 => c.overlong | 0x302 => c.lengthBad | 0x303 => c.crcBad | 0x304 => c.symbolBad
  | 0x305 => c.transitOverrun | 0x306 => c.insertAbandoned | 0x307 => c.noticeLost | 0x308 => c.echoMismatch
  | 0x309 => k.stripped | 0x30A => k.tallyExpired | 0x30B => k.blocked | 0x30C => k.refusedCall
  | 0x30D => s.alarms.lost
  | 0x30E => bitByte s.alarms.overflow
  | _ => 0

/-- Byte b of a circuit proving record (11.2). -/
def State.provingByte (s : State) (n : CircuitId) (b : Nat) : Byte :=
  let r := s.circuits[n]
  match b with
  | 0 => r.state.value
  | 1 => r.fail | 2 => r.dim | 3 => r.good | 4 => r.high
  | 5 => bitByte r.overloaded
  | 6 => hiByte (halfValue r.lastCurrent) | 7 => loByte (halfValue r.lastCurrent)
  | _ => 0

/-- Byte b of a core record (11.2). -/
def State.coreByte (s : State) (n : CircuitId) (b : Nat) : Byte :=
  let r := s.cable.cores[n]
  match b with
  | 0 => r.state.value
  | 1 => r.missTotal
  | 2 => bitByte r.probe.isSome
  | 3 => BitVec.ofNat 8 r.lastAmplitude
  | 4 => BitVec.ofNat 8 r.lastWidth
  | 6 => hiByte (halfValue r.lastLeakage) | 7 => loByte (halfValue r.lastLeakage)
  | _ => 0

/-- Byte b of an alarm entry (11.2). -/
def AlarmEntry.byte (e : AlarmEntry) (b : Nat) : Byte :=
  match b with
  | 0 => e.code.value
  | 1 => e.subject
  | 2 => bitByte (!e.active) ||| (bitByte e.notified <<< 1)
  | 3 => e.occurrences
  | 4 => wordByte e.firstRaised 0 | 5 => wordByte e.firstRaised 1
  | 6 => wordByte e.firstRaised 2 | 7 => wordByte e.firstRaised 3
  | 8 => wordByte e.lastChange 0 | 9 => wordByte e.lastChange 1
  | 10 => wordByte e.lastChange 2 | 11 => wordByte e.lastChange 3
  | _ => 0

/-- The alarm list window: slot k holds entry k, a slot past the last reads all 0 (R45, 11.2). -/
def State.alarmByte (s : State) (a : Nat) : Byte :=
  match s.alarms.list[(a - 0x600) / 12]? with
  | none => 0
  | some e => e.byte ((a - 0x600) % 12)

/-- The byte that a PEEK reads at an address (R45); 0 where no window lies. -/
def State.peekByte (s : State) (a : Nat) : Byte :=
  if identityWindow.has a then s.identityByte a
  else if controlWindow.has a then s.controlByte a
  else if statusWindow.has a then s.statusByte a
  else if countersWindow.has a then s.counterByte a
  else if h : 0x400 ≤ a ∧ a < 0x4C0 then s.provingByte ⟨(a - 0x400) / 8, by omega⟩ ((a - 0x400) % 8)
  else if h : 0x500 ≤ a ∧ a < 0x5C0 then s.coreByte ⟨(a - 0x500) / 8, by omega⟩ ((a - 0x500) % 8)
  else if alarmWindow.has a then s.alarmByte a
  else if stagingWindow.has a then Memory.read s.mgmt.staging (a - 0x1000)
  else if activeWindow.has a then
    match s.cfg with
    | none => 0
    | some m => Memory.read m (a - 0x2000)
  else 0

/-- The answer to a PEEK payload (R44): the verdict and the payload as it leaves. -/
def State.peekAnswer (s : State) (payload : List Byte) : Verdict × List Byte :=
  match parseSpan payload with
  | none => (.range, payload)
  | some (p, _) =>
    if p.leaves then (.range, payload)
    else (.taken, payload.take 3 ++ (List.range p.count).map (fun i => s.peekByte (p.start + i)))

/-! ### Tests of a LOAD (R46 to R48) -/

def addrCommit : Nat := 0x100
def addrRetire : Nat := 0x101
def addrClearCounters : Nat := 0x102
def addrStageFlagClear : Nat := 0x103
def addrMgmtStatusClear : Nat := 0x105
def addrClearProving : Nat := 0x106
def addrCoreRetest : Nat := 0x107
def addrStationReset : Nat := 0x108
def addrProtection : Nat := 0x109

/-- Data of 24 to 254 at CLEAR_PROVING or CORE_RETEST names nothing (R46). -/
def namesNothing (b : Option Byte) : Bool :=
  match b with
  | none => false
  | some v => 24 ≤ v.toNat && v.toNat ≤ 254

/-- Test 1 fails: RANGE (R46). The form has been tested by parseSpan. -/
def loadOutOfRange (p : Span) (data : List Byte) : Bool :=
  p.leaves || !(p.inside controlWindow || p.inside stagingWindow) ||
    (p.inside stagingWindow && 0x1E00 < p.start + p.count) ||
    namesNothing (dataAt p data addrClearProving) || namesNothing (dataAt p data addrCoreRetest)

/-- The span covers a gated byte (R47). -/
def coversGated (p : Span) : Bool :=
  p.inside stagingWindow || p.covers addrCommit || p.covers addrProtection || p.covers (addrProtection + 1) ||
    p.covers addrStationReset

/-- The span covers a byte of a protected staging block (R48). -/
def coversProtected (p : Span) (mask : Half) : Bool :=
  p.inside stagingWindow &&
    (List.range 16).any (fun b => setHas mask b && p.start < 0x1100 + 256 * b && 0x1000 + 256 * b < p.start + p.count)

/-- The LOAD writes 1 to a write-1 control (3.4). -/
def writesOne (p : Span) (data : List Byte) (a : Nat) : Bool := dataAt p data a = some 1

/-! ### Effects of a TAKEN LOAD (R49 to R57) -/

/-- COMMIT starts the image write: the image's marker becomes invalid (R66). -/
def State.startImageWrite (s : State) : State :=
  { s with
    mgmt := { s.mgmt with store := .image s.now false }
    nv := { s.nv with imageMarker := false } }

/-- RETIRE (R50, R173). -/
def State.retire (s : State) : State := { s with alarms := retireOn s.alarms }

/-- CLEAR_COUNTERS (R50): the ring counters, the classification counters and the lost-alarm count become 0. -/
def State.clearCounters (s : State) : State :=
  { s with
    ring := { s.ring with counters :=
      { runt := 0, overlong := 0, lengthBad := 0, crcBad := 0, symbolBad := 0, transitOverrun := 0, insertAbandoned := 0,
        noticeLost := 0, echoMismatch := 0 } }
    classifier := { stripped := 0, tallyExpired := 0, blocked := 0, refusedCall := 0 }
    alarms := { s.alarms with lost := 0 } }

/-- STAGE_FLAG_CLEAR: the flags named by the bits that are 1 are cleared (R51). -/
def State.stageFlagClear (s : State) (bits : Half) : State :=
  { s with alarms := { s.alarms with stageEnd := s.alarms.stageEnd &&& ~~~bits } }

/-- MGMT_STATUS_CLEAR (R51). -/
def State.mgmtStatusClear (s : State) (b : Byte) : State :=
  { s with mgmt := { s.mgmt with
    protectedWrite := s.mgmt.protectedWrite && !b.getLsbD 0
    protectClearRefused := s.mgmt.protectClearRefused && !b.getLsbD 1
    checkCode := if b.getLsbD 2 then 0 else s.mgmt.checkCode
    checkSubject := if b.getLsbD 2 then 255 else s.mgmt.checkSubject } }

/-- The circuits or cores that a byte names: 0 to 23 one, 255 all in order (R52, R53). -/
def namedCircuits (b : Byte) : List CircuitId := if b = 255 then circuitIds else (circuitOfByte b).toList

/-- CLEAR_PROVING (R52, R135), C0 first. -/
def State.clearProvingAll (s : State) (b : Byte) : State :=
  ((namedCircuits b).foldl (fun s n => s.clearProving n) s).settle

/-- CORE_RETEST (R53, R155), core 0 first. -/
def State.coreRetestAll (s : State) (b : Byte) : State :=
  ((namedCircuits b).foldl (fun s n => s.coreRetest n) s).settle

/-- STATION_RESET becomes TAKEN (R57). -/
def State.takeStationReset (s : State) : State := { s with mgmt := { s.mgmt with stationReset := .taken false } }

/-- The mask write is started, or follows the image write of the same LOAD (R54, R67). A mask write makes the mask marker invalid
at its start. -/
def State.startMaskWrite (s : State) : State :=
  match s.mgmt.store with
  | .image t _ => { s with mgmt := { s.mgmt with store := .image t true } }
  | .idle => { s with mgmt := { s.mgmt with store := .mask s.now }, nv := { s.nv with maskMarker := false } }
  | .mask _ => { s with mgmt := { s.mgmt with store := .mask s.now }, nv := { s.nv with maskMarker := false } }

/-- PROTECTION (R54): the bits of the bytes covered (`which`) are applied; 1 sets, 0 clears only under BENCH; a refused clear sets
PROTECT_CLEAR_REFUSED; a change starts the mask write. -/
def State.protect (s : State) (which bits : Half) : State :=
  let clears := s.mgmt.mask &&& which &&& ~~~bits
  let mask := (s.mgmt.mask ||| (which &&& bits)) &&& (if s.mgmt.bench then ~~~clears else 0xFFFF)
  let refused := !s.mgmt.bench && clears != 0
  let t := { s with mgmt := { s.mgmt with
    mask := mask, protectClearRefused := s.mgmt.protectClearRefused || refused } }
  if mask = s.mgmt.mask then t else t.startMaskWrite

/-- A 16-bit control from the bytes of it that a LOAD covers: which bits, and their values. -/
def coveredHalf (p : Span) (data : List Byte) (a : Nat) : Half × Half :=
  let hi := dataAt p data a
  let lo := dataAt p data (a + 1)
  (halfOf (if hi.isSome then 0xFF else 0) (if lo.isSome then 0xFF else 0), halfOf (hi.getD 0) (lo.getD 0))

/-- The controls in a LOAD's span act in address order (R49). -/
def State.loadControls (s : State) (p : Span) (data : List Byte) : State :=
  let s := if writesOne p data addrCommit then s.startImageWrite else s
  let s := if writesOne p data addrRetire then s.retire else s
  let s := if writesOne p data addrClearCounters then s.clearCounters else s
  let s := s.stageFlagClear (coveredHalf p data addrStageFlagClear).2
  let s := match dataAt p data addrMgmtStatusClear with
    | none => s
    | some b => s.mgmtStatusClear b
  let s := match dataAt p data addrClearProving with
    | none => s
    | some b => s.clearProvingAll b
  let s := match dataAt p data addrCoreRetest with
    | none => s
    | some b => s.coreRetestAll b
  let s := if writesOne p data addrStationReset then s.takeStationReset else s
  let m := coveredHalf p data addrProtection
  if m.1 = 0 then s else s.protect m.1 m.2

/-- A staging LOAD stores its bytes (R49). -/
def State.loadStaging (s : State) (p : Span) (data : List Byte) : State :=
  { s with mgmt := { s.mgmt with staging := Memory.writeMany s.mgmt.staging (p.start - 0x1000) data } }

/-- The last check result (R56, R61). -/
def State.checkResult (s : State) (r : Option CheckFailure) : State :=
  let x := r.getD (0, 255)
  { s with mgmt := { s.mgmt with checkCode := x.1, checkSubject := x.2 } }

/-- A LOAD that passed tests 1 to 3 acts: a COMMIT is validated first (R49, R61). -/
def State.loadAct (s : State) (p : Span) (data : List Byte) : Verdict × State :=
  if p.inside stagingWindow then (.taken, s.loadStaging p data)
  else if writesOne p data addrCommit then
    match validate s.mgmt.staging with
    | some x => (.invalid, s.checkResult (some x))
    | none => (.taken, (s.checkResult none).loadControls p data)
  else (.taken, s.loadControls p data)

/-- The answer to a LOAD payload: the tests in their order, then the action (3.3). -/
def State.loadAnswer (s : State) (payload : List Byte) : Verdict × State :=
  match parseSpan payload with
  | none => (.range, s)
  | some (p, data) =>
    if loadOutOfRange p data then (.range, s)
    else if coversGated p && s.held then (.busy, s)
    else if coversProtected p s.mgmt.mask then
      (.protectedBlock, { s with mgmt := { s.mgmt with protectedWrite := true } })
    else s.loadAct p data

/-- A TAKEN LOAD carried a STATION_RESET request (R57). -/
def loadAsksReset (payload : List Byte) : Bool :=
  match parseSpan payload with
  | none => false
  | some (p, data) => writesOne p data addrStationReset

end Sys2Proof.Machine
end

