-- ==== Sys2Proof/Machine/Classifier.lean ====
section
/-! DEFINITION. The Frame Classifier (ch2): strip, expiry, management, recognition; the ECHO answer (R23); and the arrival of a
good frame (R7, R15). -/

namespace Sys2Proof.Machine

/-! ### Addressing -/

/-- The dest is the own identity or an active alias: dest class OWN (R30, R32). -/
def State.destIsOwn (s : State) (dest : Byte) : Bool := dest = s.ownId || cfgIsAlias s.cfg dest

/-- A frame of kind CALL, LOAD, PEEK or ECHO is a management frame when its dest is the own identity, an active alias or
BROADCAST (R28). -/
def State.isManagement (s : State) (f : Frame) : Bool :=
  (f.kind = kindCall || f.kind = kindLoad || f.kind = kindPeek || f.kind = kindEcho) &&
    (s.destIsOwn f.dest || f.dest = broadcast)

/-- The dest rewrite of an answered frame (R31). -/
def State.rewriteDest (s : State) (f : Frame) : Frame :=
  if f.dest != broadcast && cfgIsAlias s.cfg f.dest && cfgAliasRewrites s.cfg f.dest then { f with dest := s.ownId } else f

/-! ### ECHO (R23) -/

/-- Every payload byte i is i XOR seq. -/
def echoMatches (f : Frame) : Bool :=
  (List.range f.payload.length).all (fun i => f.payload[i]?.getD 0 = BitVec.ofNat 8 i ^^^ f.seq)

/-- The answer to an ECHO (R23). -/
def State.echoAnswer (s : State) (f : Frame) : Verdict × State :=
  if cfgEchoCheck s.cfg && !echoMatches f then
    (.range,
      { s with ring := { s.ring with
        counters := { s.ring.counters with echoMismatch := satInc s.ring.counters.echoMismatch } } })
  else (.taken, s)

/-! ### Step 3: management (R28, R29, R31) -/

/-- A CALL is refused for its source (R29). -/
def State.refuseCall (s : State) : State :=
  { s with classifier := { s.classifier with refusedCall := satInc s.classifier.refusedCall } }

/-- An OPEN management frame is acted on and answered: the frame as it is forwarded, whether it carries a TAKEN STATION_RESET, and
the state after (R28, R29, R31, R57). The tables of the rewrite are those in force when the frame is classified. -/
def State.manage (s : State) (f : Frame) : QueuedFrame × State :=
  if f.kind = kindPeek then
    let a := s.peekAnswer f.payload
    (⟨s.rewriteDest ({ f with payload := a.2 }.answer a.1), false⟩, s)
  else if f.kind = kindLoad then
    let a := s.loadAnswer f.payload
    (⟨s.rewriteDest (f.answer a.1), a.1 = .taken && loadAsksReset f.payload⟩, a.2)
  else if f.kind = kindCall then
    if f.src = cfgSupervisorId s.cfg then
      let a := s.callAnswer f.payload
      (⟨s.rewriteDest (f.answer a.1), false⟩, a.2)
    else (⟨s.rewriteDest (f.answer .refused), false⟩, s.refuseCall)
  else
    let a := s.echoAnswer f
    (⟨s.rewriteDest (f.answer a.1), false⟩, a.2)

/-! ### Step 4: recognition (R32 to R34) -/

/-- Recognition entry e matches the frame (R32). Bits 0 to 2 of its first byte are valid, kind ANY and src ANY; dest classes are
OWN 0, BROADCAST 1, OTHER 2, ANY 3. -/
def State.entryMatches (s : State) (f : Frame) (e : Nat) : Bool :=
  let b := cfgEntryByte s.cfg e 0
  let c := cfgEntryByte s.cfg e 3
  let own := s.destIsOwn f.dest
  b.getLsbD 0 && (b.getLsbD 1 || cfgEntryByte s.cfg e 1 = f.kind) && (b.getLsbD 2 || cfgEntryByte s.cfg e 2 = f.src) &&
    (if c = 0 then own
     else if c = 1 then f.dest = broadcast
     else if c = 2 then !own && f.dest != broadcast
     else true)

/-- The action of the matching entry (R33). -/
inductive Action where
  | pass
  | snoop (entry : Nat)
  | block
deriving DecidableEq, Repr

/-- The action of the recognition table: the first valid entry that matches; no match passes (R32, R33). -/
def State.recognise (s : State) (f : Frame) : Action :=
  match (List.range 16).find? (s.entryMatches f) with
  | none => .pass
  | some e =>
    if cfgEntryByte s.cfg e 4 = 2 then .block
    else if cfgEntryByte s.cfg e 4 = 1 then .snoop e
    else .pass

/-- The lines that SNOOP raises (R34): those the demand word names within the entry's set; none when the word lies beyond the
payload. -/
def State.snoopLines (s : State) (f : Frame) (e : Nat) : Half :=
  let p := (cfgEntryByte s.cfg e 5).toNat
  match f.payload[p]?, f.payload[p + 1]? with
  | some hi, some lo => halfOf hi lo &&& halfOf (cfgEntryByte s.cfg e 6) (cfgEntryByte s.cfg e 7)
  | _, _ => 0

/-- SNOOP reads DEMAND frames only (R33, R34). -/
def State.snoop (s : State) (f : Frame) (e : Nat) : State :=
  if f.kind = kindDemand && s.snoopLines f e != 0 then (s.raiseLines (s.snoopLines f e)).settle else s

/-! ### Classification (R25) -/

/-- Append to the transit queue (R15). -/
def State.enqueue (s : State) (q : QueuedFrame) : State :=
  { s with ring := { s.ring with transit := s.ring.transit ++ [q] } }

/-- The four steps of classification (R25 to R28, R33). -/
def State.classify (s : State) (f : Frame) : State :=
  if f.src = s.ownId then
    { s with classifier := { s.classifier with stripped := satInc s.classifier.stripped } }
  else if 16 ≤ f.tally.toNat then
    { s with classifier := { s.classifier with tallyExpired := satInc s.classifier.tallyExpired } }
  else if s.isManagement f then
    if f.isOpen then (s.manage f).2.enqueue (s.manage f).1 else s.enqueue ⟨f, false⟩
  else
    match s.recognise f with
    | .pass => s.enqueue ⟨f, false⟩
    | .snoop e => (s.snoop f e).enqueue ⟨f, false⟩
    | .block => { s with classifier := { s.classifier with blocked := satInc s.classifier.blocked } }

/-- A good frame meets the transit queue: with 4 frames in it the arrival is discarded and counted, otherwise it is
classified (R15). -/
def State.arrive (s : State) (f : Frame) : State :=
  if s.ring.transit.length < 4 then s.classify f
  else
    { s with ring := { s.ring with
      counters := { s.ring.counters with transitOverrun := satInc s.ring.counters.transitOverrun } } }

/-! ### The line record (R5 to R10) -/

/-- The line enters UP (R8, R9). -/
def State.enterUp (s : State) : State :=
  { s with ring := { s.ring with line :=
    { s.ring.line with state := .up, invertedMarks := 0, lastActivity := s.now } } }.clear .lineDown 255

/-- A good frame in SEEKING is counted; the second takes the line UP (R7). -/
def State.countGood (s : State) : State :=
  match s.ring.line.state with
  | .seeking =>
    let t := { s with ring := { s.ring with line := { s.ring.line with goodFrames := min 2 (s.ring.line.goodFrames + 1) } } }
    if t.ring.line.goodFrames = 2 then t.enterUp else t
  | .down => s
  | .up => s

/-- A good frame has been received: it is counted first (R7, log 21), then it meets the transit queue (R15). -/
def State.goodFrame (s : State) (f : Frame) : State := s.countGood.arrive f

/-- RING IN waits for a frame again. -/
def State.waiting (s : State) : State := { s with ring := { s.ring with reception := .waiting } }

/-- A whole-frame command stands for the bytes and the end marker of a good frame (log 6): the frame ends and is handed on.
Nothing in DOWN, where frames are not received (R5), and nothing for a payload that no frame can hold (log 32). -/
def State.handOn (f : Frame) (s : State) : State :=
  match s.ring.line.state with
  | .down => s
  | .seeking => if f.payload.length ≤ 48 then s.waiting.goodFrame f else s
  | .up => if f.payload.length ≤ 48 then s.waiting.goodFrame f else s

end Sys2Proof.Machine
end

