-- ==== Sys2Proof/Machine/Frames.lean ====
section
/-! DEFINITION. The commands that are the arrival of one good frame (log 6): ECHO, PEEK, LOAD, the controls of the control window
(log 7) and the CALL commands. Each frame is classified, and answered where it is for the J824 (R25, R28). -/

namespace Sys2Proof.Machine

/-- ECHO (R23, R28). -/
def execEcho (dt : Nat) (e : Env) (payload : List Byte) (s : State) : Host.Outcome State Fault Refusal :=
  live dt (State.handOn (envFrame kindEcho e payload)) s

/-- PEEK (R43 to R45). -/
def execPeek (dt : Nat) (e : Env) (payload : List Byte) (s : State) : Host.Outcome State Fault Refusal :=
  live dt (State.handOn (envFrame kindPeek e payload)) s

/-- LOAD (R43, R46 to R49). -/
def execLoad (dt : Nat) (e : Env) (payload : List Byte) (s : State) : Host.Outcome State Fault Refusal :=
  live dt (State.handOn (envFrame kindLoad e payload)) s

/-- COMMIT: a LOAD of its byte (R49, R61, R66). -/
def execCommit (dt : Nat) (e : Env) (v : Byte) (s : State) : Host.Outcome State Fault Refusal :=
  live dt (State.handOn (loadFrame e 0x0100 [v])) s

/-- RETIRE: a LOAD of its byte (R50, R173). -/
def execRetire (dt : Nat) (e : Env) (v : Byte) (s : State) : Host.Outcome State Fault Refusal :=
  live dt (State.handOn (loadFrame e 0x0101 [v])) s

/-- CLEAR_COUNTERS: a LOAD of its byte (R50). -/
def execClearCounters (dt : Nat) (e : Env) (v : Byte) (s : State) : Host.Outcome State Fault Refusal :=
  live dt (State.handOn (loadFrame e 0x0102 [v])) s

/-- STAGE_FLAG_CLEAR: a LOAD of its two bytes (R51). -/
def execStageFlagClear (dt : Nat) (e : Env) (w : Half) (s : State) : Host.Outcome State Fault Refusal :=
  live dt (State.handOn (loadFrame e 0x0103 [hiByte w, loByte w])) s

/-- MGMT_STATUS_CLEAR: a LOAD of its byte (R51). -/
def execMgmtStatusClear (dt : Nat) (e : Env) (v : Byte) (s : State) : Host.Outcome State Fault Refusal :=
  live dt (State.handOn (loadFrame e 0x0105 [v])) s

/-- CLEAR_PROVING: a LOAD of its byte (R52, R135). -/
def execClearProving (dt : Nat) (e : Env) (v : Byte) (s : State) : Host.Outcome State Fault Refusal :=
  live dt (State.handOn (loadFrame e 0x0106 [v])) s

/-- CORE_RETEST: a LOAD of its byte (R53, R155). -/
def execCoreRetest (dt : Nat) (e : Env) (v : Byte) (s : State) : Host.Outcome State Fault Refusal :=
  live dt (State.handOn (loadFrame e 0x0107 [v])) s

/-- STATION_RESET: a LOAD of its byte (R57). -/
def execStationReset (dt : Nat) (e : Env) (v : Byte) (s : State) : Host.Outcome State Fault Refusal :=
  live dt (State.handOn (loadFrame e 0x0108 [v])) s

/-- PROTECTION: a LOAD of its two bytes (R54, R55). -/
def execProtection (dt : Nat) (e : Env) (w : Half) (s : State) : Host.Outcome State Fault Refusal :=
  live dt (State.handOn (loadFrame e 0x0109 [hiByte w, loByte w])) s

/-- CALL DEMAND (R41). -/
def execCallDemand (dt : Nat) (e : Env) (args : List Byte) (s : State) : Host.Outcome State Fault Refusal :=
  live dt (State.handOn (callFrame e callDemandCode args)) s

/-- CALL PLAN (R113). -/
def execPlan (dt : Nat) (e : Env) (args : List Byte) (s : State) : Host.Outcome State Fault Refusal :=
  live dt (State.handOn (callFrame e callPlan args)) s

/-- CALL FORCE (R114). -/
def execForce (dt : Nat) (e : Env) (args : List Byte) (s : State) : Host.Outcome State Fault Refusal :=
  live dt (State.handOn (callFrame e callForce args)) s

/-- CALL HOLD (R116). -/
def execHold (dt : Nat) (e : Env) (args : List Byte) (s : State) : Host.Outcome State Fault Refusal :=
  live dt (State.handOn (callFrame e callHold args)) s

/-- CALL RELEASE (R117). -/
def execRelease (dt : Nat) (e : Env) (args : List Byte) (s : State) : Host.Outcome State Fault Refusal :=
  live dt (State.handOn (callFrame e callRelease args)) s

/-- CALL ALL_RED (R118). -/
def execAllRed (dt : Nat) (e : Env) (args : List Byte) (s : State) : Host.Outcome State Fault Refusal :=
  live dt (State.handOn (callFrame e callAllRed args)) s

/-- CALL RESUME (R119, R167). -/
def execResume (dt : Nat) (e : Env) (args : List Byte) (s : State) : Host.Outcome State Fault Refusal :=
  live dt (State.handOn (callFrame e callResume args)) s

/-- CALL FLASH (R166). -/
def execFlash (dt : Nat) (e : Env) (args : List Byte) (s : State) : Host.Outcome State Fault Refusal :=
  live dt (State.handOn (callFrame e callFlash args)) s

/-- CALL DARK (R166). -/
def execDark (dt : Nat) (e : Env) (args : List Byte) (s : State) : Host.Outcome State Fault Refusal :=
  live dt (State.handOn (callFrame e callDark args)) s

/-- CALL TIME (R122). -/
def execTime (dt : Nat) (e : Env) (args : List Byte) (s : State) : Host.Outcome State Fault Refusal :=
  live dt (State.handOn (callFrame e callTime args)) s

end Sys2Proof.Machine
end

