-- ==== Sys2Proof/Machine/Lamps.lean ====
section
/-! DEFINITION. The commands of the lamp side: half-cycle marks with their sample sets, the flash phase, DRIVE_EN, loss of mains,
probes and leakage tests (ch5, ch7, ch8). -/

namespace Sys2Proof.Machine

/-! ### Half-cycle marks (R92, R94, R123 to R126) -/

/-- A mark is counted; the first after a loss of mains ends the loss, blanks two sample sets and takes back the changes made at its own
instant, which it then applies (R92, R125, R126, log 43). -/
def State.countMark (s : State) : State :=
  let t := { s with
    drive := { s.drive with halfCycles := s.drive.halfCycles + 1 }
    scanner := { s.scanner with lastMark := s.now } }
  match s.scanner.mains with
  | .present => t
  | .lost => ({ t with scanner := { t.scanner with mains := .present, blankSets := 2 } }.takeBack).clear .mainsLost 255

/-- A reading is blanked (R124): its mark minus its changed-at, modulo 2^32, is 0, 1 or 2. -/
def blanked (mark changedAt : Word) : Bool :=
  mark - changedAt = 0 || mark - changedAt = 1 || mark - changedAt = 2

/-- The whole set is blanked after a return of mains (R126), or the reading by R124. -/
def State.setBlanked (s : State) (r : DriveRecord) : Bool :=
  decide (0 < s.scanner.blankSets) || blanked s.drive.halfCycles r.changedAt

/-- A sample set (R123): each reading belongs to the drive record as it stood at the end of the half-cycle, `records`. The CURRENT
readings go to the Proving Unit, C0 first, then the VOLTAGE readings to the Cable Monitor, C0 first (log 5). Larger values are
delivered as the top of the range (log 23). -/
def State.sampleSet (s : State) (records : Vector DriveRecord 24) (values : Vector Nat 24) : State :=
  let t := circuitIds.foldl
    (fun t n =>
      if records[n].applied && !s.setBlanked records[n] then t.currentReading n (min 4095 values[n]) else t) s
  circuitIds.foldl
    (fun t n =>
      if !records[n].applied && !s.setBlanked records[n] then t.voltageReading n (min 400 values[n]) else t) t

/-- One whole sample set blanked after a return of mains has passed (R126). -/
def State.unblank (s : State) : State :=
  { s with scanner := { s.scanner with blankSets := s.scanner.blankSets - 1 } }

/-- HALF_CYCLE_MARK: the mark is counted, waiting changes are applied, the sample set is delivered (R92, R94, R123). That the changes and
the evidence that follows from them come before the readings is the model's choice (log 33), and so is that a PENDING activation which a
conflict or a lost red at the mark meets is swapped after the whole set has been classified under the old configuration (R160, log 5). -/
def execHalfCycleMark (dt : Nat) (values : Vector Nat 24) (s : State) : Host.Outcome State Fault Refusal :=
  live dt (fun s => ((s.countMark.applyTargets.sampleSet s.drive.records values).unblank).settle) s

/-! ### Flash phase (R93) -/

/-- FLASH_PHASE_EDGE: every 500 ms, whatever the junction mode (R93). -/
def execFlashPhaseEdge (dt : Nat) (s : State) : Host.Outcome State Fault Refusal :=
  live dt
    (fun s =>
      if s.drive.flashSince + 500000 ≤ s.now then
        { s with drive := { s.drive with
          flashOn := !s.drive.flashOn, flashSince := s.drive.flashSince + 500000 } }.settle
      else s)
    s

/-! ### DRIVE_EN (R96, R97, R181) -/

/-- The pin has a level now, and has had it for `lasted`: a level that it did not have before began that long ago, but not before the
instant at which the other level was last seen (R181, log 38). -/
def DriveEnPin.seenAt (p : DriveEnPin) (now : Nat) (level : Bool) (lasted : Nat) : DriveEnPin :=
  { level := level, since := if p.level = level then p.since else max p.seen (now - lasted), seen := now }

/-- The pin of DRIVE_EN is seen at a level (R181). -/
def State.pinAt (s : State) (level : Bool) (lasted : Nat) : State :=
  { s with drive := { s.drive with pin := s.drive.pin.seenAt s.now level lasted } }

/-- The pin's level has lasted 1 ms (R181). -/
def State.pinQualified (s : State) : Bool := s.drive.pin.since + 1000 ≤ s.now

/-- The cause at a fall of DRIVE_EN: DRIVE_OFF, but CONFIG_EMPTY or a latched CONFLICT is kept (R96, R161). -/
def State.driveOffCause (s : State) : Fallback :=
  if s.fallback.cause.cause = .configEmpty || s.fallback.latch then s.fallback else s.written .driveOff 255 true

/-- DRIVE_EN falls (R96): every output OFF at once, DARK by SHOW_DARK, DRIVE_OFF raised. Green evidence is lost, and withheld groups are
checked again (R88, R157), before SHOW_DARK acts, so that a PEDESTRIAN group released then may enter GREEN and take this instant as its
green-end time; FALLBACK, where it clears, clears before DRIVE_OFF is raised. The manual gives neither order (log 5). -/
def State.driveFall (s : State) : State :=
  let t := { s with drive := { s.drive with driveEn := false } }.applyTargets.forget
  (t.toDark t.driveOffCause).raise .driveOff 255

/-- DRIVE_EN_FALL: the pin is low and has been for `held`; the edge event when that is 1 ms, else only the pin's level (R96, R181,
log 38). -/
def execDriveEnFall (p : PinTime) (s : State) : Host.Outcome State Fault Refusal :=
  live p.dt
    (fun s =>
      let t := s.pinAt false p.held
      if t.drive.driveEn && t.pinQualified then t.driveFall.settle else t)
    s

/-- DRIVE_EN rises (R97): DRIVE_OFF clears; DARK with CONFIG_EMPTY, DARK with CONFLICT (log 26), or START. -/
def State.driveRise (s : State) : State :=
  let t := { s with drive := { s.drive with driveEn := true } }.clear .driveOff 255
  if cfgEmpty t.cfg then t.shift .dark (t.causeOnly .configEmpty)
  else if t.fallback.latch then t.shift .dark (t.written .conflict t.fallback.cause.subject false)
  else t.enterStart (t.causeOnly .none)

/-- DRIVE_EN_RISE: the pin is high and has been for `held`; the edge event when that is 1 ms, else only the pin's level (R97, R181,
log 38). -/
def execDriveEnRise (p : PinTime) (s : State) : Host.Outcome State Fault Refusal :=
  live p.dt
    (fun s =>
      let t := s.pinAt true p.held
      if !t.drive.driveEn && t.pinQualified then t.driveRise.settle else t)
    s

/-! ### Loss of mains (R94, R125, R143, R151) -/

/-- Every probe and the leakage test in flight are cancelled (R143, R151). -/
def State.cancelTests (s : State) : State :=
  { s with
    cable := { s.cable with cores := Vector.ofFn (fun n => { s.cable.cores[n] with probe := none }) }
    scanner := { s.scanner with leakTest := none } }

/-- Mains is lost (R125). -/
def State.loseMains (s : State) : State :=
  ({ s with scanner := { s.scanner with mains := .lost } }.raise .mainsLost 255).cancelTests.applyTargets

/-- MAINS_LOST: 50 ms without a mark (R125). -/
def execMainsLost (dt : Nat) (s : State) : Host.Outcome State Fault Refusal :=
  live dt
    (fun s =>
      match s.scanner.mains with
      | .present => if s.scanner.lastMark + 50000 ≤ s.now then s.loseMains.settle else s
      | .lost => s)
    s

/-! ### Probes (R142 to R146) -/

/-- The circuit has been commanded OFF and applied OFF, off-since plus 10 ds reached, with mains (R142, R150). -/
def State.steadilyOff (s : State) (n : CircuitId) : Bool :=
  s.commanded n = .off && !s.drive.records[n].applied && s.cable.cores[n].offSince + 10 ≤ s.timeBase &&
    s.scanner.mains = .present

/-- The spacing from an instant that may never have been: none, or `wait` ds have passed (R142, R150). -/
def State.spaced (s : State) (last : Option Nat) (wait : Nat) : Bool :=
  match last with
  | none => true
  | some t => t + wait ≤ s.timeBase

/-- A leakage test is in flight on this core. -/
def Scanner.testing (x : Scanner) (n : CircuitId) : Bool :=
  match x.leakTest with
  | none => false
  | some (m, _) => m = n

/-- A probe is due on core n (R142). -/
def State.probeDue (s : State) (n : CircuitId) : Bool :=
  cfgCoreEnabled s.cfg n && s.cable.cores[n].state != .crossFeed && s.steadilyOff n && s.cable.cores[n].probe.isNone &&
    !s.scanner.testing n && s.spaced s.cable.cores[n].lastProbe 20

/-- PROBE_REQUEST (R142). -/
def execProbeRequest (dt : Nat) (n : CircuitId) (s : State) : Host.Outcome State Fault Refusal :=
  live dt
    (fun s =>
      if s.probeDue n then
        s.setCore n { s.cable.cores[n] with probe := some s.now, lastProbe := some s.stamp }
      else s)
    s

/-- A probe return is delivered and classified (R143 to R146). -/
def State.probeReturned (s : State) (n : CircuitId) (amplitude width : Nat) : State :=
  (s.moveCore n (s.cable.cores[n].probed (probeValid s.cfg n amplitude width) amplitude width)).settle

/-- PROBE_RETURN: 1 ms after the request; the return of a cancelled probe is discarded (R143). -/
def execProbeReturn (dt : Nat) (n : CircuitId) (amplitude width : Nat) (s : State) :
    Host.Outcome State Fault Refusal :=
  live dt
    (fun s =>
      match s.cable.cores[n].probe with
      | none => s
      | some t => if t + 1000 ≤ s.now then s.probeReturned n (min 100 amplitude) (min 250 width) else s)
    s

/-! ### Leakage tests (R150 to R152) -/

/-- Core n is eligible for a leakage test (R150). -/
def State.leakEligible (s : State) (n : CircuitId) : Bool :=
  cfgCoreEnabled s.cfg n && (s.cable.cores[n].state = .sound || s.cable.cores[n].state = .leaky) && s.steadilyOff n &&
    s.cable.cores[n].probe.isNone && s.spaced s.cable.cores[n].lastLeakTest 300

/-- The cores in cyclic order from the one the pointer names (R150). -/
def coresFrom (p : CircuitId) : List CircuitId :=
  circuitIds.filter (fun n => p ≤ n) ++ circuitIds.filter (fun n => n < p)

/-- LEAKAGE_TEST_START: the first eligible core from the leakage pointer (R150). -/
def execLeakageTestStart (dt : Nat) (s : State) : Host.Outcome State Fault Refusal :=
  live dt
    (fun s =>
      match s.scanner.leakTest, (coresFrom s.cable.leakPointer).find? s.leakEligible with
      | none, some n =>
        let t := s.setCore n { s.cable.cores[n] with lastLeakTest := some s.stamp }
        { t with
          cable := { t.cable with leakPointer := n + 1 }
          scanner := { t.scanner with leakTest := some (n, s.now) } }
      | _, _ => s)
    s

/-- LEAKAGE_RESULT: 100 ms after the start, in µA, a larger current as 1000 (R151, R152). -/
def execLeakageResult (dt : Nat) (current : Nat) (s : State) : Host.Outcome State Fault Refusal :=
  live dt
    (fun s =>
      match s.scanner.leakTest with
      | none => s
      | some (n, t) =>
        if t + 100000 ≤ s.now then
          let u := { s with scanner := { s.scanner with leakTest := none } }
          u.moveCore n (u.cable.cores[n].leaked (cfgLeakLimit u.cfg n ≤ min 1000 current) (min 1000 current))
        else s)
    s

end Sys2Proof.Machine
end

