-- ==== Sys2Proof/Machine/Reset.lean ====
section
/-! DEFINITION. The two resets and the ends of the store writes (R57, R58, R66, R67, R73, R74, R181). -/

namespace Sys2Proof.Machine

/-! ### The state while a reset is in progress (log 13) -/

/-- Every block at its value after reset, before anything is loaded: outputs OFF, RING OUT silent, queues, counters, timers and the
alarm list empty (R17, R22, R58). The store, the straps as last sampled, the model's draw counter and the command queue are kept;
the clock and the last-fallback record are given. -/
def State.wiped (s : State) (phase : ResetPhase) (clock : Word) (clockSince : Nat) (last : CauseRecord) : State :=
  { State.reset with
    now := s.now, resetEnd := s.now, phase := phase
    ring := { State.reset.ring with
      line := { State.reset.ring.line with lastActivity := s.now }
      idleSince := s.now, insertion := [], nextAttempt := none, insertionSeq := 0, draws := s.ring.draws }
    mgmt := { State.reset.mgmt with bench := s.mgmt.bench, ident := s.mgmt.ident }
    nv := s.nv
    seq := { State.reset.seq with clock := clock, clockSince := clockSince }
    drive := { State.reset.drive with driveEn := s.drive.driveEn, pin := s.drive.pin, flashSince := s.now }
    fallback := { State.reset.fallback with last := last }
    alarms := { State.reset.alarms with list := [] }
    pending := s.pending }

/-- The cleared last-fallback record (R161). -/
def CauseRecord.cleared : CauseRecord := { cause := .none, subject := 255, time := 0 }

/-- The instant at which RESET returns high, when a power-on reset begins now and holds it low for `held`: a RESET that a power-on
reset in progress already holds low longer stays low (R181, log 14). -/
def State.releasedAt (s : State) (held : Nat) : Nat :=
  match s.phase with
  | .notInReset => s.now + held
  | .powerOn released => max released (s.now + held)
  | .station _ => s.now + held

/-- POWER_ON_RESET: in every phase the part is held in reset from this instant; the clock is 0, the last-fallback record cleared, a
store write ends where it stands (R17, R66, R67, R122, R161, R181). -/
def execPowerOnReset (p : PinTime) (s : State) : Host.Outcome State Fault Refusal :=
  let t := elapse p.dt s
  .next (t.wiped (.powerOn (t.releasedAt p.held)) 0 t.now CauseRecord.cleared)

/-- The carrying frame has been sent and the store is IDLE (R57). -/
def State.stationResetDue (s : State) : Bool := s.mgmt.stationReset = .taken true && s.mgmt.store = .idle

/-- STATION_RESET_CARRIED_OUT: the station reset begins (R57, R58); the clock and the last-fallback record are kept. -/
def execStationResetCarriedOut (dt : Nat) (s : State) : Host.Outcome State Fault Refusal :=
  live dt
    (fun s =>
      if s.stationResetDue then s.wiped (.station s.now) s.seq.clock s.seq.clockSince s.fallback.last else s)
    s

/-! ### RESET_END (R58, R73, R172, R181) -/

/-- The image is valid: its marker is, and its check matches (R66, R73). -/
def NonVolatile.imageValid (n : NonVolatile) : Bool := n.imageMarker && n.imageCheckMatches

/-- The active configuration that the load gives (R73). -/
def NonVolatile.config (n : NonVolatile) : Cfg := if n.imageValid then some n.image else none

/-- The staging configuration that the load gives (R73). -/
def NonVolatile.staging (n : NonVolatile) : Memory := if n.imageValid then n.image else []

/-- The protection mask that the load gives (R55, R73). -/
def NonVolatile.mask (n : NonVolatile) : Half := if n.maskMarker then n.maskWord else 0

/-- The configuration, the mask and the straps are loaded, and what each block takes from them (R73, R75, R100, R127, R181). -/
def State.loaded (s : State) (ident : BitVec 4) (bench driveEn : Bool) : State :=
  let c := s.nv.config
  { s with
    mgmt := { s.mgmt with
      staging := s.nv.staging, active := c, mask := s.nv.mask, bench := bench, ident := ident }
    demand := { s.demand with nextSample := s.now + 10000 }
    seq := { s.seq with currentPlan := cfgIsolatedPlan c, supervisedPlan := cfgIsolatedPlan c }
    groups := Vector.ofFn (fun g => { s.groups[g] with kind := cfgKind c g })
    drive := { s.drive with driveEn := driveEn, pin := { level := driveEn, since := s.now, seen := s.now } }
    scanner := { s.scanner with lastMark := s.now }
    circuits := Vector.ofFn (fun n => ProvingRecord.fresh (cfgProvingEnabled c n) 0) }

/-- The raises that a reset brings, in the order of R172. -/
def State.resetRaises (s : State) : State :=
  let t := s.raise .lineDown 255
  let t := if cfgEmpty t.cfg then t.raise .configEmpty 255 else t
  if t.drive.driveEn then t else t.raise .driveOff 255

/-- The mode after the load with its cause (R73, R102). -/
def State.resetMode (s : State) : State :=
  if cfgEmpty s.cfg then { s with fallback := s.causeOnly .configEmpty }
  else if s.drive.driveEn then s.enterStart (s.causeOnly .none)
  else { s with fallback := s.causeOnly .driveOff }

/-- The end of a reset: every block at its value after reset, then the load (R58, R73), then the raises (R172). That the load comes before
the raise of LINE_DOWN, so that the straps, the notice mask and the SUPERVISOR_ID of the load hold for its notice, is the model's choice:
the manual puts both at one instant and gives no order (log 50). -/
def State.endReset (s : State) (ident : BitVec 4) (bench driveEn : Bool) (clock : Word) (clockSince : Nat)
    (last : CauseRecord) : State :=
  ((s.wiped .notInReset clock clockSince last).loaded ident bench driveEn).resetRaises.resetMode

/-- RESET_END: 10 ms after RESET returned high (R181) or the station reset was carried out (R58), the straps are sampled and the
configuration is loaded (R73). The clock counts from the end of a power-on reset (R122). -/
def execResetEnd (dt : Nat) (ident : BitVec 4) (bench driveEn : Bool) (s : State) :
    Host.Outcome State Fault Refusal :=
  let t := elapse dt s
  match t.phase with
  | .notInReset => .next t
  | .powerOn released =>
    .next (if released + 10000 ≤ t.now then t.endReset ident bench driveEn 0 t.now CauseRecord.cleared else t)
  | .station since =>
    .next (if since + 10000 ≤ t.now then t.endReset ident bench driveEn t.seq.clock t.seq.clockSince t.fallback.last
      else t)

/-! ### Store writes -/

/-- The image write has ended: the image holds the staging configuration with a matching check, its marker is valid (R66); a mask
write may follow (R67). -/
def State.imageWritten (s : State) (maskNext : Bool) : State :=
  { s with
    nv := { s.nv with
      imageMarker := true, imageCheckMatches := true, image := s.mgmt.staging
      maskMarker := s.nv.maskMarker && !maskNext }
    mgmt := { s.mgmt with store := if maskNext then .mask s.now else .idle } }

/-- IMAGE_WRITE_END: 240 ms after its start the image write ends and the activation becomes PENDING (R66, R68). -/
def execImageWriteEnd (dt : Nat) (s : State) : Host.Outcome State Fault Refusal :=
  live dt
    (fun s =>
      match s.mgmt.store with
      | .idle => s
      | .mask _ => s
      | .image t maskNext =>
        if t + 240000 ≤ s.now then (s.imageWritten maskNext).activationPending.settle else s)
    s

/-- MASK_WRITE_END: 20 ms after its start the mask write ends (R67). -/
def execMaskWriteEnd (dt : Nat) (s : State) : Host.Outcome State Fault Refusal :=
  live dt
    (fun s =>
      match s.mgmt.store with
      | .idle => s
      | .image _ _ => s
      | .mask t =>
        if t + 20000 ≤ s.now then
          { s with
            nv := { s.nv with maskMarker := true, maskWord := s.mgmt.mask }
            mgmt := { s.mgmt with store := .idle } }
        else s)
    s

end Sys2Proof.Machine
end

