-- ==== Sys2Proof/Machine/RingLine.lean ====
section
/-! DEFINITION. The receive side of the ring: marks, markers, data bytes and symbols on RING IN, the line state and the frame
validation (R3 to R14). One definition for each command. -/

namespace Sys2Proof.Machine

/-! ### The line -/

/-- Change the line record. -/
def State.onLine (s : State) (f : LineRecord → LineRecord) : State :=
  { s with ring := { s.ring with line := f s.ring.line } }

/-- The five receive error counters become 0 (R9). -/
def RingCounters.newLine (c : RingCounters) : RingCounters :=
  { c with runt := 0, overlong := 0, lengthBad := 0, crcBad := 0, symbolBad := 0 }

/-- The line enters DOWN (R9): receive error counters 0, a partly received frame dropped, the run counts 0, LINE_DOWN raised. -/
def State.enterDown (s : State) : State :=
  { s with ring := { s.ring with
      line := { s.ring.line with state := .down, markRun := 0, goodFrames := 0, invertedMarks := 0, lastMark := none }
      reception := .waiting
      counters := s.ring.counters.newLine } }.raise .lineDown 255

/-- The squelch window, in nanoseconds: 0.8 µs to 1.6 µs (R3). -/
def inSquelch (width : Nat) : Bool := 800 ≤ width && width ≤ 1600

/-- A valid mark takes the line from DOWN to SEEKING (R5). -/
def LineRecord.seekFrom (l : LineRecord) (now : Nat) : LineRecord :=
  { l with state := .seeking, markRun := 1, lastMark := some now, lastActivity := now, goodFrames := 0, invertedMarks := 0 }

/-- A valid mark in SEEKING (R6). -/
def State.markSeeking (s : State) : State :=
  let now := s.now
  match s.ring.line.lastMark with
  | none => s.onLine (fun l => { l with markRun := 1, lastMark := some now, lastActivity := now, invertedMarks := 0 })
  | some t =>
    if 2000 ≤ now - t ∧ now - t ≤ 8000 then
      let u := s.onLine (fun l =>
        { l with markRun := min 3 (l.markRun + 1), lastMark := some now, lastActivity := now, invertedMarks := 0 })
      if u.ring.line.markRun = 3 then u.enterUp else u
    else s.enterDown.onLine (fun l => l.seekFrom now)

/-- A valid mark, by the line state (R5, R6, R8). -/
def State.validMark (s : State) : State :=
  let now := s.now
  match s.ring.line.state with
  | .down => s.onLine (fun l => l.seekFrom now)
  | .seeking => s.markSeeking
  | .up => s.onLine (fun l => { l with lastActivity := now })

/-- The receive polarity flips (R10). -/
def LineRecord.flip (l : LineRecord) : LineRecord :=
  let p : Polarity := match l.polarity with
    | .normal => .inverted
    | .inverted => .normal
  match l.state with
  | .seeking => { l with polarity := p, invertedMarks := 0, goodFrames := 0, markRun := 0, lastMark := none }
  | .down => { l with polarity := p, invertedMarks := 0 }
  | .up => { l with polarity := p, invertedMarks := 0 }

/-- An inverted mark in DOWN or SEEKING: the third flips the polarity and is taken again as a valid mark (R5, R6, R10). -/
def State.invertedMarkCounted (s : State) : State :=
  if s.ring.line.invertedMarks + 1 < 3 then s.onLine (fun l => { l with invertedMarks := l.invertedMarks + 1 })
  else (s.onLine LineRecord.flip).validMark

/-- A mark is recorded as an invalid line symbol in a frame that is being collected (R11). In discarding it has no effect but to
end the silence (R13). -/
def Reception.symbol (r : Reception) (now : Nat) : Reception :=
  match r with
  | .waiting => .waiting
  | .collecting bytes _ => .collecting bytes true
  | .discarding _ => .discarding now

/-- A symbol that RING IN ignores still ends the silence that discarding waits for (R13). -/
def Reception.ignored (r : Reception) (now : Nat) : Reception :=
  match r with
  | .waiting => .waiting
  | .collecting bytes bad => .collecting bytes bad
  | .discarding _ => .discarding now

/-- RING IN meets a symbol that is no part of a frame. -/
def State.symbol (s : State) : State :=
  { s with ring := { s.ring with reception := s.ring.reception.symbol s.now } }

/-! ### Frames -/

/-- The counter of the first failing test of R14; none for a good frame. -/
inductive FrameError where
  | runt | lengthBad | crcBad | symbolBad
deriving DecidableEq, Repr

/-- The check bytes of a frame as received: the last two. -/
def receivedCheck (bytes : List Byte) : Half :=
  halfOf (bytes[bytes.length - 2]?.getD 0) (bytes[bytes.length - 1]?.getD 0)

/-- The tests of R14 in order (OVERLONG is decided at the 58th byte, R13). -/
def frameError (bytes : List Byte) (badSymbol : Bool) : Option FrameError :=
  if bytes.length < 9 then some .runt
  else if (bytes[6]?.getD 0).toNat ≠ bytes.length - 9 then some .lengthBad
  else if crc (bytes.take (bytes.length - 2)) ≠ receivedCheck bytes then some .crcBad
  else if badSymbol then some .symbolBad
  else none

/-- A bad frame is counted (R14, R24). -/
def RingCounters.count (c : RingCounters) (e : FrameError) : RingCounters :=
  match e with
  | .runt => { c with runt := satInc c.runt }
  | .lengthBad => { c with lengthBad := satInc c.lengthBad }
  | .crcBad => { c with crcBad := satInc c.crcBad }
  | .symbolBad => { c with symbolBad := satInc c.symbolBad }

/-- A frame has ended and is validated (R14): RING IN waits again, a bad frame is counted, a good one handed on. -/
def State.frameEnded (s : State) (bytes : List Byte) (badSymbol : Bool) : State :=
  match frameError bytes badSymbol with
  | some e => { s.waiting with ring := { s.waiting.ring with counters := s.ring.counters.count e } }
  | none =>
    match parseFrame bytes with
    | none => s.waiting
    | some f => s.waiting.goodFrame f

/-- A frame start in SEEKING or UP (R6, R8, R11): line activity; in SEEKING the mark run ends; a frame is open. -/
def State.frameStart (s : State) : State :=
  let now := s.now
  let t := s.onLine (fun l =>
    match l.state with
    | .seeking => { l with markRun := 0, lastMark := none, lastActivity := now }
    | .up => { l with lastActivity := now }
    | .down => l)
  { t with ring := { t.ring with reception := .collecting [] false } }

/-- A start marker in receive polarity (R5, R11, R13): none of it in DOWN; it ends an open frame as one with an invalid line
symbol; then it opens a frame. -/
def State.startMarker (s : State) : State :=
  match s.ring.line.state with
  | .down => s
  | .seeking =>
    match s.ring.reception with
    | .collecting bytes _ => (s.frameEnded bytes true).frameStart
    | .waiting => s.frameStart
    | .discarding _ => s.frameStart
  | .up =>
    match s.ring.reception with
    | .collecting bytes _ => (s.frameEnded bytes true).frameStart
    | .waiting => s.frameStart
    | .discarding _ => s.frameStart

/-- A data byte (R11, R13): collected; the 58th cuts the frame off as OVERLONG. -/
def State.dataByte (s : State) (b : Byte) : State :=
  match s.ring.reception with
  | .waiting => s
  | .discarding _ => { s with ring := { s.ring with reception := .discarding s.now } }
  | .collecting bytes bad =>
    if bytes.length + 1 < 58 then { s with ring := { s.ring with reception := .collecting (bytes ++ [b]) bad } }
    else
      { s with ring := { s.ring with
        reception := .discarding s.now
        counters := { s.ring.counters with overlong := satInc s.ring.counters.overlong } } }

/-- An end marker ends the frame (R11, R14); in discarding it has no effect but to end the silence (R13). -/
def State.endMarker (s : State) : State :=
  match s.ring.reception with
  | .waiting => s
  | .collecting bytes bad => s.frameEnded bytes bad
  | .discarding _ => { s with ring := { s.ring with reception := .discarding s.now } }

/-! ### The commands -/

/-- VALID_MARK: a pulse of the given width in nanoseconds in the receive polarity (R3). -/
def execValidMark (dt width : Nat) (s : State) : Host.Outcome State Fault Refusal :=
  live dt
    (fun s =>
      match s.ring.reception with
      | .waiting => if inSquelch width then s.validMark else s
      | .collecting _ _ => s.symbol
      | .discarding _ => s.symbol)
    s

/-- INVERTED_MARK: a pulse of the opposite sense (R3, R10); in UP it is ignored (R8). -/
def execInvertedMark (dt width : Nat) (s : State) : Host.Outcome State Fault Refusal :=
  live dt
    (fun s =>
      match s.ring.reception with
      | .waiting =>
        if inSquelch width then
          match s.ring.line.state with
          | .down => s.invertedMarkCounted
          | .seeking => s.invertedMarkCounted
          | .up => s
        else s
      | .collecting _ _ => s.symbol
      | .discarding _ => s.symbol)
    s

/-- START_MARKER: a start marker in the receive polarity (R6, R8, R11). -/
def execStartMarker (dt : Nat) (s : State) : Host.Outcome State Fault Refusal := live dt State.startMarker s

/-- INVERTED_START_MARKER: in DOWN and SEEKING it flips the polarity and is taken again as a start marker (R10); in UP it is no
frame start (R8, log 22). -/
def execInvertedStartMarker (dt : Nat) (s : State) : Host.Outcome State Fault Refusal :=
  live dt
    (fun s =>
      match s.ring.line.state with
      | .down => (s.onLine LineRecord.flip).startMarker
      | .seeking => (s.onLine LineRecord.flip).startMarker
      | .up => { s with ring := { s.ring with reception := s.ring.reception.ignored s.now } })
    s

/-- DATA_BYTE (R11, R13). -/
def execDataByte (dt : Nat) (b : Byte) (s : State) : Host.Outcome State Fault Refusal :=
  live dt (fun s => s.dataByte b) s

/-- INVALID_LINE_SYMBOL: recorded in a frame that is being collected (R11). -/
def execInvalidLineSymbol (dt : Nat) (s : State) : Host.Outcome State Fault Refusal := live dt State.symbol s

/-- DISCARDING_SILENCE: 64 µs with no symbol end discarding (R13). -/
def execDiscardingSilence (dt : Nat) (s : State) : Host.Outcome State Fault Refusal :=
  live dt
    (fun s =>
      match s.ring.reception with
      | .waiting => s
      | .collecting _ _ => s
      | .discarding t => if t + 64 ≤ s.now then s.waiting else s)
    s

/-- SEEKING_TIMEOUT: 8 ms in SEEKING with no line activity take the line DOWN (R7). -/
def execSeekingTimeout (dt : Nat) (s : State) : Host.Outcome State Fault Refusal :=
  live dt
    (fun s =>
      match s.ring.line.state with
      | .down => s
      | .seeking => if s.ring.line.lastActivity + 8000 ≤ s.now then s.enterDown else s
      | .up => s)
    s

/-- SILENCE_WATCHDOG: 20 ms in UP with no line activity take the line DOWN (R8). -/
def execSilenceWatchdog (dt : Nat) (s : State) : Host.Outcome State Fault Refusal :=
  live dt
    (fun s =>
      match s.ring.line.state with
      | .down => s
      | .seeking => s
      | .up => if s.ring.line.lastActivity + 20000 ≤ s.now then s.enterDown else s)
    s

/-- END_MARKER (R11, R14). -/
def execEndMarker (dt : Nat) (s : State) : Host.Outcome State Fault Refusal := live dt State.endMarker s

end Sys2Proof.Machine
end

