-- ==== Sys2Proof/Config.lean ====
section
/-! DEFINITION. What the manual leaves to each run of the part. The configuration that the supervisor loads is not
here: it is state (the staging and active configurations of Machine/State.lean), read by Machine/Tables.lean. -/

namespace Sys2Proof

/-- FREE VALUE (log 8). The number behind the k-th backoff draw since the model's origin (R21: the Ring Port Unit draws
uniformly and independently). It has no body: a claim holds for every draw. The draw used is this number modulo
2^min(n,6). Safe. -/
opaque Config.backoffDraw : Nat → Nat

end Sys2Proof
end

