-- ==== Sys2Proof/Machine/RingOut.lean ====
section
/-! DEFINITION. The send side of the ring: keep-alive marks, transit transmissions and the insertion of own frames (R1, R2, R16,
R19 to R21). One definition for each command. -/

namespace Sys2Proof.Machine

/-- RING OUT is IDLE (R2). -/
def OutPort.isIdle : OutPort → Bool
  | .idle => true
  | .frame _ _ _ _ => false
  | .mark _ => false

/-! ### What is on the line (R1) -/

/-- The pulse of a mark that the J824 sends is 1.2 µs wide (R1). -/
def markPulse : Nat := 1200

/-- The symbols of a frame in the order in which they are sent, each one byte time long: start marker, bytes, end marker (1.4, R1);
`check` is the check sent with it. -/
def Frame.symbols (f : Frame) (check : Half) : List SymbolKind :=
  .startMarker :: ((f.body ++ [hiByte check, loByte check]).map .data ++ [.endMarker])

/-- The symbol that RING OUT sends at the instant `now`, every one in normal sense (R1): a byte time of 8 µs for each symbol of a frame, up
to its end; a mark for the byte time that RING OUT is busy with it. -/
def OutPort.lineSymbol (o : OutPort) (now : Nat) : Option LineSymbol :=
  match o with
  | .idle => none
  | .frame f check _ ends =>
    let symbols := f.symbols check
    (symbols[(now + symbols.length * 8 - ends) / 8]?).map (fun k => { sense := .normal, kind := k })
  | .mark ends => if now < ends then some { sense := .normal, kind := .mark markPulse } else none

/-- RING OUT: the symbol on the line at present; none while nothing is sent (R1, R2). -/
def State.ringOut (s : State) : Option LineSymbol := s.ring.out.lineSymbol s.now

/-! ### Keep-alive marks and transit frames -/

/-- KEEP_ALIVE_MARK: 4 ms of IDLE send a mark of one byte time (R2); its pulse is `markPulse` wide (R1, `State.ringOut`). -/
def execKeepAliveMark (dt : Nat) (s : State) : Host.Outcome State Fault Refusal :=
  live dt
    (fun s =>
      match s.ring.out with
      | .idle =>
        if s.ring.idleSince + 4000 ≤ s.now then { s with ring := { s.ring with out := .mark (s.now + 8) } } else s
      | .frame _ _ _ _ => s
      | .mark _ => s)
    s

/-- MARK_END: the mark's byte time ends (R2). -/
def execMarkEnd (dt : Nat) (s : State) : Host.Outcome State Fault Refusal :=
  live dt
    (fun s =>
      match s.ring.out with
      | .idle => s
      | .frame _ _ _ _ => s
      | .mark ends =>
        if ends ≤ s.now then { s with ring := { s.ring with out := .idle, idleSince := s.now } } else s)
    s

/-- A transit frame on its way out: its tally is incremented (R16). -/
def Frame.forwarded (f : Frame) : Frame := { f with tally := f.tally + 1 }

/-- TRANSMISSION_START: RING OUT takes the oldest transit frame, increments its tally and computes its check anew (R16). -/
def execTransmissionStart (dt : Nat) (s : State) : Host.Outcome State Fault Refusal :=
  live dt
    (fun s =>
      match s.ring.out, s.ring.transit with
      | .idle, q :: rest =>
        let f := q.frame.forwarded
        { s with ring := { s.ring with
          transit := rest, out := .frame f f.check q.carriesReset (s.now + f.lineMicros) } }
      | _, _ => s)
    s

/-- The frame that carried a TAKEN STATION_RESET has been sent (R57). -/
def StationReset.carrierGone (r : StationReset) : StationReset :=
  match r with
  | .none => .none
  | .taken _ => .taken true

/-- TRANSMISSION_END: the frame has been sent in full; the keep-alive mark timer restarts (R2, R16, R57). -/
def execTransmissionEnd (dt : Nat) (s : State) : Host.Outcome State Fault Refusal :=
  live dt
    (fun s =>
      match s.ring.out with
      | .idle => s
      | .mark _ => s
      | .frame _ _ carrier ends =>
        if ends ≤ s.now then
          { s with
            ring := { s.ring with out := .idle, idleSince := s.now }
            mgmt := { s.mgmt with
              stationReset := if carrier then s.mgmt.stationReset.carrierGone else s.mgmt.stationReset } }
        else s)
    s

/-! ### Insertion (R19 to R21) -/

/-- The head makes its first attempt when it becomes head (R19). -/
def headAttempt (now : Nat) (queue : List InsertionEntry) : Option Nat := if queue.isEmpty then none else some now

/-- The three conditions of an insertion attempt (R20). -/
def State.mayInsert (s : State) : Bool :=
  s.ring.transit.isEmpty && s.ring.out.isIdle && !s.ring.reception.receiving

/-- The head is sent (R20): it leaves the queue with its check computed, and the next frame becomes head. -/
def State.insertHead (s : State) (e : InsertionEntry) (rest : List InsertionEntry) : State :=
  { s with ring := { s.ring with
    insertion := rest
    nextAttempt := headAttempt s.now rest
    out := .frame e.frame e.frame.check false (s.now + e.frame.lineMicros) } }

/-- The wait in µs that draw k gives after deferral n: r × 0.25 ms, r below 2^min(n,6) (R21, log 8). -/
def backoff (k n : Nat) : Nat := Config.backoffDraw k % 2 ^ min n 6 * 250

/-- A deferral (R21): counted; the twelfth abandons the frame, any other draws a backoff wait. -/
def State.deferHead (s : State) (e : InsertionEntry) (rest : List InsertionEntry) : State :=
  if e.deferrals + 1 < 12 then
    { s with ring := { s.ring with
      insertion := { e with deferrals := e.deferrals + 1 } :: rest
      nextAttempt := some (s.now + backoff s.ring.draws (e.deferrals + 1))
      draws := s.ring.draws + 1 } }
  else
    { s with ring := { s.ring with
      insertion := rest
      nextAttempt := headAttempt s.now rest
      counters := { s.ring.counters with insertAbandoned := satInc s.ring.counters.insertAbandoned } } }

/-- The head's attempt is due (R19, R21). -/
def State.attemptDue (s : State) : Bool :=
  match s.ring.nextAttempt with
  | none => false
  | some t => t ≤ s.now

/-- INSERTION_ATTEMPT: the head tries insertion when its attempt is due (R19 to R21). -/
def execInsertionAttempt (dt : Nat) (s : State) : Host.Outcome State Fault Refusal :=
  live dt
    (fun s =>
      match s.ring.insertion with
      | [] => s
      | e :: rest =>
        if s.attemptDue then (if s.mayInsert then s.insertHead e rest else s.deferHead e rest) else s)
    s

end Sys2Proof.Machine
end

