-- ==== Sys2Proof/Machine/Timers.lean ====
section
/-! DEFINITION. The timed commands of the Demand Unit, the Junction Sequencer, the Aspect Unit and the Fallback Controller. Each acts
when its timer is due and otherwise only lets its time pass (log 2). -/

namespace Sys2Proof.Machine

/-- A second in microseconds. -/
def secondMicros : Nat := 1000000

/-! ### Contacts (R37, R40) -/

/-- A contact's debounce record after a sample (R37). -/
def Contact.sample (c : Contact) (closed : Bool) : Contact :=
  if closed = c.closed then { c with changes := 0 }
  else if c.changes < 2 then { c with changes := c.changes + 1 }
  else { closed := closed, changes := 0 }

/-- Contact Kn is sampled: an accepted closure is one demand event on its line, an accepted opening ends its held extension (R36,
R37, R40). -/
def State.sampleContact (s : State) (k : ContactId) (closed : Bool) : State :=
  let old := s.demand.contacts[k]
  let new := old.sample closed
  let t := { s with demand := { s.demand with contacts := s.demand.contacts.set k.val new } }
  if new.closed && !old.closed then t.demandEvent (contactLine k)
  else if old.closed && !new.closed then
    { t with demand := { t.demand with held := t.demand.held.set k.val none } }
  else t

/-- CONTACT_SAMPLE: every 10 ms, K0 first; bit n of `levels` is 1 when Kn is sampled CLOSED (R37). -/
def execContactSample (dt : Nat) (levels : Byte) (s : State) : Host.Outcome State Fault Refusal :=
  live dt
    (fun s =>
      if s.demand.nextSample ≤ s.now then
        let t := { s with demand := { s.demand with nextSample := s.demand.nextSample + 10000 } }
        (contactIds.foldl (fun t k => t.sampleContact k (levels.getLsbD k.val)) t).settle
      else s)
    s

/-- The held-extension timing of a contact's line: the next event of the series (R40). -/
def State.setHeld (s : State) (k : ContactId) (x : Option Nat) : State :=
  { s with demand := { s.demand with held := s.demand.held.set k.val x } }

/-- HELD_EXTENSION: the first event when the condition has become true, then one every second (R40, log 20). -/
def execHeldExtension (dt : Nat) (k : ContactId) (s : State) : Host.Outcome State Fault Refusal :=
  live dt
    (fun s =>
      if s.heldCondition k then
        match s.demand.held[k] with
        | none => (s.setHeld k (some (s.now + secondMicros))).extensionEvent
        | some t => if t ≤ s.now then (s.setHeld k (some (t + secondMicros))).extensionEvent else s
      else s.setHeld k none)
    s

/-! ### Cabinet clock (R122) -/

/-- The clock counts one second. -/
def State.tickClock (s : State) : State :=
  if s.seq.clockSince + secondMicros ≤ s.now then
    { s with seq := { s.seq with clock := s.seq.clock + 1, clockSince := s.seq.clockSince + secondMicros } }
  else s

/-- CABINET_CLOCK_TICK: the clock also counts through a station reset (R122). -/
def execCabinetClockTick (dt : Nat) (s : State) : Host.Outcome State Fault Refusal :=
  let t := elapse dt s
  match t.phase with
  | .notInReset => .next t.tickClock
  | .powerOn _ => .next t
  | .station _ => .next t.tickClock

/-! ### Supervision (R121) -/

/-- The sequencer at a supervision expiry (R121). -/
def Sequencer.isolate (q : Sequencer) : Sequencer :=
  { q.released with
    control := .isolated, supervision := none, pendingPlan := none, isolatedSwitch := true, switchKept := false }

/-- The step ends that a supervision expiry brings in RUN: a rest ends, and a step end that HOLD kept back is taken (R121). -/
def State.afterIsolation (s : State) (held : Bool) : State :=
  if s.seq.mode = .run && s.seq.step = .rest then s.stepEnd
  else if held && s.extendDue then s.stepEnd
  else s

/-- SUPERVISION_EXPIRY (R120, R121). SUPERVISION_LOST is raised before the step end that may bring a STAGE_END notice; the manual gives
no order (log 5). -/
def execSupervisionExpiry (dt : Nat) (s : State) : Host.Outcome State Fault Refusal :=
  live dt
    (fun s =>
      match s.seq.control with
      | .isolated => s
      | .supervised =>
        if s.reached s.seq.supervision then
          ((({ s with seq := s.seq.isolate }).raise .supervisionLost 255).afterIsolation s.seq.hold).settle
        else s)
    s

/-! ### The end of START (R103) -/

/-- The plan that the end of START settles (R103). -/
def Sequencer.startPlan (q : Sequencer) (c : Cfg) : Nat :=
  match q.control with
  | .isolated => cfgIsolatedPlan c
  | .supervised => q.supervisedPlan

/-- START_RED_EXPIRY: RUN, the plan settled, step 0 chosen, a stage change that leaves no stage (R103). -/
def execStartRedExpiry (dt : Nat) (s : State) : Host.Outcome State Fault Refusal :=
  live dt
    (fun s =>
      if s.seq.mode = .start && s.timerDue s.seq.startRed then
        let plan := s.seq.startPlan s.cfg
        let t := { s with seq := { s.seq with
          mode := .run, currentPlan := plan, pendingPlan := none, isolatedSwitch := false, pointer := 0, startRed := none } }
        (t.changeStage false (cfgStepStage t.cfg plan 0)).settle
      else s)
    s

/-! ### Step timing (R106, R107) -/

/-- The minimum expiry has been reached (R106). -/
def State.minEnded (s : State) : State :=
  match s.seq.transfer with
  | .clearing => s
  | .awaiting => s.beginClearing
  | .none =>
    match s.seq.pendingForce with
    | some f => s.actForce f
    | none =>
      match s.seq.force with
      | .forced => s.beginRest
      | .released => s.stepEnd
      | .none => { s with seq := { s.seq with step := .extend } }

/-- MIN_EXPIRY (R106). -/
def execMinExpiry (dt : Nat) (s : State) : Host.Outcome State Fault Refusal :=
  live dt
    (fun s =>
      if s.seq.mode = .run && s.seq.step = .min && s.reached s.seq.minExpiry then s.minEnded.settle else s)
    s

/-- EXTENSION_DEADLINE: the step end of EXTEND is taken unless HOLD is yes (R107). -/
def execExtensionDeadline (dt : Nat) (s : State) : Host.Outcome State Fault Refusal :=
  live dt (fun s => if s.extendDue && !s.seq.hold then s.stepEnd.settle else s) s

/-! ### Stall (R111) -/

/-- STALL: the stall timer has reached the stall limit; alarm STALL is raised for the group withheld longest and the cause handed
over (R111, R163). -/
def execStall (dt : Nat) (s : State) : Host.Outcome State Fault Refusal :=
  live dt
    (fun s =>
      match s.stallRunning, s.longestWithheld with
      | true, some (g, t) =>
        if t + cfgStallLimit s.cfg ≤ s.timeBase then
          ((s.raise .stall (BitVec.ofNat 8 g.val)).controlled .stall (BitVec.ofNat 8 g.val)).settle
        else s
      | _, _ => s)
    s

/-! ### Aspect timing (R77, R78, R83 to R86) -/

/-- The group waits in RED, not withheld, with a gain request that falls due for RED_AMBER (R83). -/
def State.redAmberDue (s : State) (g : GroupId) : Bool :=
  let x := s.groups[g]
  x.kind = .vehicle && x.aspect = .red && !x.withheld &&
    match x.gain with
    | none => false
    | some e => e ≤ s.timeBase + cfgRedAmber s.cfg g

/-- RED_AMBER_DUE (R83, R87). -/
def execRedAmberDue (dt : Nat) (g : GroupId) (s : State) : Host.Outcome State Fault Refusal :=
  live dt (fun s => if s.redAmberDue g then (s.tryRedAmber g).settle else s) s

/-- EARLIEST_GREEN_DUE: a group that waits at its entry tries it when its earliest green has been reached (R84, R85, R86, log
34). -/
def execEarliestGreenDue (dt : Nat) (g : GroupId) (s : State) : Host.Outcome State Fault Refusal :=
  live dt (fun s => if s.groups[g].waitsForGreen && s.reached s.groups[g].gain then (s.tryGreen g).settle else s) s

/-- RED_AMBER_EXPIRY: the red-amber time has run and the group tries its entry to GREEN (R84). A group that stays in RED_AMBER waits
with no aspect timer; the manual does not say whether its timer is none or 0 (log 40). -/
def execRedAmberExpiry (dt : Nat) (g : GroupId) (s : State) : Host.Outcome State Fault Refusal :=
  live dt
    (fun s =>
      if s.groups[g].aspect = .redAmber && s.timerDue s.groups[g].timer then
        ((s.setGroup g { s.groups[g] with timer := none }).tryGreen g).settle
      else s)
    s

/-- AMBER_EXPIRY (R77, R86). -/
def execAmberExpiry (dt : Nat) (g : GroupId) (s : State) : Host.Outcome State Fault Refusal :=
  live dt
    (fun s =>
      if s.groups[g].aspect = .amber && s.timerDue s.groups[g].timer then (s.endTermination g).settle else s)
    s

/-- CLEARANCE_EXPIRY: the group leaves right of way, and groups that waited for it try their entries again (R78, R84, R86). -/
def execClearanceExpiry (dt : Nat) (g : GroupId) (s : State) : Host.Outcome State Fault Refusal :=
  live dt
    (fun s =>
      if s.groups[g].aspect = .greenFlash && s.timerDue s.groups[g].timer then
        ((s.endTermination g).retryAround g).settle
      else s)
    s

/-! ### The end of FAIL_RED (R165) -/

/-- The fail-red timer is RUNNING and has expired. -/
def State.failRedDue (s : State) : Bool :=
  s.seq.mode = .failRed &&
    match s.fallback.failRed with
    | .none => false
    | .waiting => false
    | .running t => s.timerDue (some t)

/-- FAIL_RED_EXPIRY: FLASH by SHOW_FLASH, the cause is kept (R165). -/
def execFailRedExpiry (dt : Nat) (s : State) : Host.Outcome State Fault Refusal :=
  live dt (fun s => if s.failRedDue then (s.toFlash s.fallback).settle else s) s

end Sys2Proof.Machine
end

