-- ==== Sys2Proof/Machine/Dispatch.lean ====
section
/-! DEFINITION. The dispatch: one arm per command, in the order of spec/opcode_table.json. -/

namespace Sys2Proof.Machine

/-- The effect of a command on everything but the queue. -/
def exec (i : Instr) (s : State) : Host.Outcome State Fault Refusal :=
  match i with
  | .powerOnReset p => Sys2Proof.Machine.execPowerOnReset p s
  | .resetEnd dt ident bench driveEn => Sys2Proof.Machine.execResetEnd dt ident bench driveEn s
  | .stationResetCarriedOut dt => Sys2Proof.Machine.execStationResetCarriedOut dt s
  | .keepAliveMark dt => Sys2Proof.Machine.execKeepAliveMark dt s
  | .markEnd dt => Sys2Proof.Machine.execMarkEnd dt s
  | .validMark dt width => Sys2Proof.Machine.execValidMark dt width s
  | .invertedMark dt width => Sys2Proof.Machine.execInvertedMark dt width s
  | .startMarker dt => Sys2Proof.Machine.execStartMarker dt s
  | .invertedStartMarker dt => Sys2Proof.Machine.execInvertedStartMarker dt s
  | .dataByte dt b => Sys2Proof.Machine.execDataByte dt b s
  | .invalidLineSymbol dt => Sys2Proof.Machine.execInvalidLineSymbol dt s
  | .discardingSilence dt => Sys2Proof.Machine.execDiscardingSilence dt s
  | .seekingTimeout dt => Sys2Proof.Machine.execSeekingTimeout dt s
  | .silenceWatchdog dt => Sys2Proof.Machine.execSilenceWatchdog dt s
  | .endMarker dt => Sys2Proof.Machine.execEndMarker dt s
  | .transmissionStart dt => Sys2Proof.Machine.execTransmissionStart dt s
  | .transmissionEnd dt => Sys2Proof.Machine.execTransmissionEnd dt s
  | .insertionAttempt dt => Sys2Proof.Machine.execInsertionAttempt dt s
  | .echo dt e payload => Sys2Proof.Machine.execEcho dt e payload s
  | .peek dt e payload => Sys2Proof.Machine.execPeek dt e payload s
  | .load dt e payload => Sys2Proof.Machine.execLoad dt e payload s
  | .commit dt e v => Sys2Proof.Machine.execCommit dt e v s
  | .retire dt e v => Sys2Proof.Machine.execRetire dt e v s
  | .clearCounters dt e v => Sys2Proof.Machine.execClearCounters dt e v s
  | .stageFlagClear dt e w => Sys2Proof.Machine.execStageFlagClear dt e w s
  | .mgmtStatusClear dt e v => Sys2Proof.Machine.execMgmtStatusClear dt e v s
  | .clearProving dt e v => Sys2Proof.Machine.execClearProving dt e v s
  | .coreRetest dt e v => Sys2Proof.Machine.execCoreRetest dt e v s
  | .stationReset dt e v => Sys2Proof.Machine.execStationReset dt e v s
  | .protection dt e w => Sys2Proof.Machine.execProtection dt e w s
  | .imageWriteEnd dt => Sys2Proof.Machine.execImageWriteEnd dt s
  | .maskWriteEnd dt => Sys2Proof.Machine.execMaskWriteEnd dt s
  | .contactSample dt levels => Sys2Proof.Machine.execContactSample dt levels s
  | .heldExtension dt k => Sys2Proof.Machine.execHeldExtension dt k s
  | .callDemand dt e args => Sys2Proof.Machine.execCallDemand dt e args s
  | .plan dt e args => Sys2Proof.Machine.execPlan dt e args s
  | .force dt e args => Sys2Proof.Machine.execForce dt e args s
  | .hold dt e args => Sys2Proof.Machine.execHold dt e args s
  | .release dt e args => Sys2Proof.Machine.execRelease dt e args s
  | .allRed dt e args => Sys2Proof.Machine.execAllRed dt e args s
  | .resume dt e args => Sys2Proof.Machine.execResume dt e args s
  | .flash dt e args => Sys2Proof.Machine.execFlash dt e args s
  | .dark dt e args => Sys2Proof.Machine.execDark dt e args s
  | .time dt e args => Sys2Proof.Machine.execTime dt e args s
  | .cabinetClockTick dt => Sys2Proof.Machine.execCabinetClockTick dt s
  | .supervisionExpiry dt => Sys2Proof.Machine.execSupervisionExpiry dt s
  | .startRedExpiry dt => Sys2Proof.Machine.execStartRedExpiry dt s
  | .minExpiry dt => Sys2Proof.Machine.execMinExpiry dt s
  | .extensionDeadline dt => Sys2Proof.Machine.execExtensionDeadline dt s
  | .stall dt => Sys2Proof.Machine.execStall dt s
  | .redAmberDue dt g => Sys2Proof.Machine.execRedAmberDue dt g s
  | .earliestGreenDue dt g => Sys2Proof.Machine.execEarliestGreenDue dt g s
  | .redAmberExpiry dt g => Sys2Proof.Machine.execRedAmberExpiry dt g s
  | .amberExpiry dt g => Sys2Proof.Machine.execAmberExpiry dt g s
  | .clearanceExpiry dt g => Sys2Proof.Machine.execClearanceExpiry dt g s
  | .halfCycleMark dt values => Sys2Proof.Machine.execHalfCycleMark dt values s
  | .flashPhaseEdge dt => Sys2Proof.Machine.execFlashPhaseEdge dt s
  | .driveEnFall p => Sys2Proof.Machine.execDriveEnFall p s
  | .driveEnRise p => Sys2Proof.Machine.execDriveEnRise p s
  | .mainsLost dt => Sys2Proof.Machine.execMainsLost dt s
  | .probeRequest dt n => Sys2Proof.Machine.execProbeRequest dt n s
  | .probeReturn dt n amplitude width => Sys2Proof.Machine.execProbeReturn dt n amplitude width s
  | .leakageTestStart dt => Sys2Proof.Machine.execLeakageTestStart dt s
  | .leakageResult dt current => Sys2Proof.Machine.execLeakageResult dt current s
  | .failRedExpiry dt => Sys2Proof.Machine.execFailRedExpiry dt s

end Sys2Proof.Machine
end

