-- ==== Sys2Proof/Safety.lean ====
section
/-! DEFINITION. The safety predicates that the obligations are stated in: what holds between commands, and what a frame needs to be
acted on. -/

namespace Sys2Proof.Safety

open Sys2Proof.Machine

/-! ### What a command keeps -/

/-- A predicate that every step keeps. -/
def Kept (inv : State → Prop) : Prop := ∀ s t : State, inv s → step s = .next t → inv t

/-! ### Bounds and forms -/

/-- The lists hold no more than the manual lets them: 4 transit frames, 8 notices, 32 alarms (R15, R18, R168). -/
def ListsBounded (s : State) : Prop :=
  s.ring.transit.length ≤ 4 ∧ s.ring.insertion.length ≤ 8 ∧ s.alarms.list.length ≤ 32

/-- A byte memory is canonical and lists nothing of blocks 14 and 15 (R73). -/
def memoryFits (m : Memory) : Bool := Memory.wf m && m.all (fun c => decide (c.1 < 3584))

/-- Staging, image and active configuration are canonical and hold nothing in blocks 14 and 15 (R73, R180). -/
def MemoriesFit (s : State) : Prop :=
  memoryFits s.mgmt.staging = true ∧ memoryFits s.nv.image = true ∧ (∀ m ∈ s.mgmt.active, memoryFits m = true)

/-- No two entries of the alarm list have the same code and subject (R168). -/
def AlarmsDistinct (s : State) : Prop :=
  s.alarms.list.Pairwise (fun a b => ¬ (a.code = b.code ∧ a.subject = b.subject))

/-! ### Groups -/

/-- No two conflicting groups are both in right of way (R84). -/
def NoConflictingGreens (s : State) : Prop :=
  ∀ i j : GroupId, s.conflicts i j = true →
    ¬ (s.groups[i].aspect.rightOfWay = true ∧ s.groups[j].aspect.rightOfWay = true)

/-- A group that is DARK with nothing asked of it. -/
def darkPlain (x : Group) : Bool :=
  x.aspect = .dark && x.timer.isNone && x.gain.isNone && !x.withheld && x.withheldSince.isNone

/-- What a group shows in mode FLASH: FLASH_AMBER for a VEHICLE group, DARK for the others (R81). -/
def flashPlain (x : Group) : Bool :=
  match x.kind with
  | .vehicle => x.aspect = .flashAmber && x.timer.isNone && x.gain.isNone && !x.withheld && x.withheldSince.isNone
  | .pedestrian => darkPlain x
  | .unused => darkPlain x

/-- UNUSED groups are DARK; in mode DARK every group is, in mode FLASH every group shows its flash picture (R78, R81, R91). -/
def AspectsFollowMode (s : State) : Prop :=
  ∀ g : GroupId,
    (s.groups[g].kind = .unused → darkPlain s.groups[g] = true) ∧
    (s.seq.mode = .dark → darkPlain s.groups[g] = true) ∧
    (s.seq.mode = .flash → flashPlain s.groups[g] = true)

/-- Red status is what the proving states give (R137). -/
def RedStatusComputed (s : State) : Prop := ∀ g : GroupId, s.groups[g].redStatus = s.redStatusOf g

/-- Green evidence is what the applied states and cross-fed cores give (R157). -/
def EvidenceComputed (s : State) : Prop := ∀ g : GroupId, s.groups[g].evidence = s.evidenceOf g

/-- Every conflicting pair with evidence on both sides has been detected, only pairs whose evidence lasts count as detected, and a
detected pair has set the latch (R158, R159). -/
def ConflictsDetected (s : State) : Prop :=
  (∀ i j : GroupId, s.conflicts i j = true → s.groups[i].evidence = true → s.groups[j].evidence = true →
    pairSubject i j ∈ s.fallback.detected) ∧
  (∀ p ∈ s.fallback.detected, ∀ g : GroupId, pairNames p g = true → s.groups[g].evidence = true) ∧
  (s.fallback.detected ≠ [] → s.fallback.latch = true)

/-! ### Modes -/

/-- While the conflict latch is set, the mode is FLASH or DARK (R159). -/
def LatchHolds (s : State) : Prop := s.fallback.latch = true → s.seq.mode = .flash ∨ s.seq.mode = .dark

/-- While DRIVE_EN is low, the mode is DARK and every output OFF (R96). -/
def DriveEnHolds (s : State) : Prop :=
  s.drive.driveEn = false → s.seq.mode = .dark ∧ ∀ n : CircuitId, s.drive.records[n].applied = false

/-- While the active configuration is EMPTY, the mode is DARK (R73). -/
def EmptyHolds (s : State) : Prop := s.cfg = none → s.seq.mode = .dark

/-- Outside RUN no step runs (R100, R101, R118). -/
def NoStepOutsideRun (s : State) : Prop :=
  s.seq.mode ≠ .run →
    s.seq.step = .none ∧ s.seq.stage = none ∧ s.seq.stepStart = none ∧ s.seq.minExpiry = none ∧ s.seq.deadline = none ∧
      s.seq.pendingForce = none ∧ s.seq.force = .none

/-- The fail-red timer is NONE outside FAIL_RED and not NONE in it (R164, R165). -/
def FailRedTimed (s : State) : Prop := s.fallback.failRed = .none ↔ s.seq.mode ≠ .failRed

/-- The supervision timer runs exactly while the control source is SUPERVISED (R120). -/
def SupervisionTimed (s : State) : Prop := s.seq.control = .supervised ↔ s.seq.supervision.isSome = true

/-- The fail-red timer waits only while some used group is not RED (R164). -/
def FailRedWaits (s : State) : Prop :=
  s.fallback.failRed = .waiting → ∃ g : GroupId, s.groups[g].kind ≠ .unused ∧ s.groups[g].aspect ≠ .red

/-- A plan switch is kept only in a rest under HOLD, with a plan pending (R109). -/
def SwitchKeptInRest (s : State) : Prop :=
  s.seq.switchKept = true →
    s.seq.mode = .run ∧ s.seq.step = .rest ∧ s.seq.hold = true ∧ s.seq.force ≠ .forced ∧ s.seq.pendingPlan ≠ none

/-- A transfer is in progress only in RUN and ALL_RED (R70). -/
def TransferInRun (s : State) : Prop := s.seq.transfer ≠ .none → s.seq.mode = .run ∨ s.seq.mode = .allRed

/-! ### Circuits -/

/-- A circuit whose core is OPEN or CROSS_FEED is NOT_PROVABLE or DISABLED (R134). -/
def BrokenNotProvable (s : State) : Prop :=
  ∀ n : CircuitId, s.cable.cores[n].state = .opened ∨ s.cable.cores[n].state = .crossFeed →
    s.circuits[n].state = .notProvable ∨ s.circuits[n].state = .disabled

/-- A probe is in flight only on a circuit applied OFF (R142, R143). -/
def ProbesOnlyWhenOff (s : State) : Prop :=
  ∀ n : CircuitId, s.cable.cores[n].probe.isSome = true → s.drive.records[n].applied = false

/-! ### The table space -/

/-- The first and last address of each window (R43). -/
def windowBounds : List (Nat × Nat) :=
  [(0x0000, 0x00FF), (0x0100, 0x01FF), (0x0200, 0x02FF), (0x0300, 0x03FF), (0x0400, 0x04BF), (0x0500, 0x05BF),
   (0x0600, 0x077F), (0x1000, 0x1FFF), (0x2000, 0x2FFF)]

/-- The values of the mnemonic fields (10.1, 11.2, 11.3). -/
def ValuesShown : Prop :=
  [JunctionMode.dark, .start, .run, .allRed, .failRed, .flash].map JunctionMode.value = [0, 1, 2, 3, 4, 5] ∧
  [ControlSource.isolated, .supervised].map ControlSource.value = [0, 1] ∧
  [StepState.none, .enter, .min, .extend, .rest].map StepState.value = [0, 1, 2, 3, 4] ∧
  [LineState.down, .seeking, .up].map LineState.value = [0, 1, 2] ∧
  [Polarity.normal, .inverted].map Polarity.value = [0, 1] ∧
  [Cause.none, .conflict, .redLoss, .stall, .commanded, .driveOff, .configEmpty].map Cause.value = [0, 1, 2, 3, 4, 5, 6] ∧
  [GroupKind.unused, .vehicle, .pedestrian].map GroupKind.value = [0, 1, 2] ∧
  [Aspect.dark, .red, .redAmber, .green, .amber, .greenFlash, .flashAmber].map Aspect.value = [0, 1, 2, 3, 4, 5, 6] ∧
  [RedStatus.unproven, .proven, .lost].map RedStatus.value = [0, 1, 2] ∧
  [Command.off, .on, .flash].map Command.value = [0, 1, 2] ∧
  [ProvingState.unproven, .proven, .dim, .failed, .shorted, .notProvable, .disabled].map ProvingState.value =
    [0, 1, 2, 3, 4, 5, 6] ∧
  [CoreState.untested, .sound, .suspect, .opened, .crossFeed, .leaky].map CoreState.value = [0, 1, 2, 3, 4, 5] ∧
  [AlarmCode.lampFailed, .lampDim, .lampOverload, .lampShort, .redLost, .coreOpen, .coreCrossFeed, .coreLeaky, .conflict, .stall,
    .supervisionLost, .lineDown, .mainsLost, .configEmpty, .driveOff, .fallback].map AlarmCode.value =
    [1, 2, 3, 4, 5, 6, 7, 8, 9, 10, 11, 12, 13, 14, 15, 16] ∧
  (∀ x : Store, x.value = if x = .idle then 0 else 1) ∧
  [Activation.none, .pending].map Activation.value = [0, 1] ∧
  (∀ x : StationReset, x.value = if x = .none then 0 else 1)

/-- n bytes of the table space from an address. -/
def shown (s : State) (a n : Nat) : List Byte := (List.range n).map (fun i => s.peekByte (a + i))

/-- Bit k when the flag is set. -/
def bitAt (b : Bool) (k : Nat) : Byte := if b then BitVec.ofNat 8 (2 ^ k) else 0

/-- A number in two bytes, most significant first, saturating at 65535. -/
def twoBytes (n : Nat) : List Byte := [hiByte (BitVec.ofNat 16 (min n 65535)), loByte (BitVec.ofNat 16 (min n 65535))]

/-- The identity, control, counters, staging and active windows as a PEEK reads them (R45, R180, 11.2, 11.3). -/
def PlainWindowsShown (s : State) : Prop :=
  shown s 0x0000 9 =
    [0x4A, 0x38, 0x32, 0x34, 1, 0x40 + s.mgmt.ident.setWidth 8, s.mgmt.ident.setWidth 8, bitAt s.mgmt.bench 0,
     bitAt s.drive.pin.level 0] ∧
  (∀ a, 0x0009 ≤ a → a ≤ 0x00FF → s.peekByte a = 0) ∧
  shown s 0x0109 2 = [hiByte s.mgmt.mask, loByte s.mgmt.mask] ∧
  shown s 0x0110 7 =
    [bitAt s.mgmt.protectedWrite 0 ||| bitAt s.mgmt.protectClearRefused 1, s.mgmt.store.value, s.mgmt.activation.value,
     s.mgmt.stationReset.value, bitAt s.mgmt.bench 0, s.mgmt.checkCode, s.mgmt.checkSubject] ∧
  (∀ a, 0x0100 ≤ a → a ≤ 0x01FF → ¬ (0x0109 ≤ a ∧ a ≤ 0x010A) → ¬ (0x0110 ≤ a ∧ a ≤ 0x0116) → s.peekByte a = 0) ∧
  shown s 0x0300 15 =
    [s.ring.counters.runt, s.ring.counters.overlong, s.ring.counters.lengthBad, s.ring.counters.crcBad,
     s.ring.counters.symbolBad, s.ring.counters.transitOverrun, s.ring.counters.insertAbandoned, s.ring.counters.noticeLost,
     s.ring.counters.echoMismatch, s.classifier.stripped, s.classifier.tallyExpired, s.classifier.blocked,
     s.classifier.refusedCall, s.alarms.lost, bitAt s.alarms.overflow 0] ∧
  (∀ a, 0x030F ≤ a → a ≤ 0x03FF → s.peekByte a = 0) ∧
  (∀ k, k < 4096 → s.peekByte (0x1000 + k) = Memory.read s.mgmt.staging k) ∧
  (∀ k, k < 4096 → s.mgmt.active = none → s.peekByte (0x2000 + k) = 0) ∧
  (∀ k m, k < 4096 → s.mgmt.active = some m → s.peekByte (0x2000 + k) = Memory.read m k)

/-- The fields of the junction status window outside its records (R45, 11.2). -/
def StatusShown (s : State) : Prop :=
  shown s 0x0200 9 =
    [s.seq.mode.value, s.seq.control.value, BitVec.ofNat 8 s.seq.currentPlan,
     (match s.seq.pendingPlan with | none => 255 | some p => BitVec.ofNat 8 p), BitVec.ofNat 8 s.seq.pointer, s.seq.step.value,
     hiByte s.demand.register, loByte s.demand.register, s.peekByte 0x0208] ∧
  (∀ k : ContactId, (s.peekByte 0x0208).getLsbD k.val = s.demand.contacts[k].closed) ∧
  shown s 0x0209 3 = [s.ring.line.state.value, s.ring.line.polarity.value, 0] ∧
  shown s 0x020C 4 = wordBytes s.seq.clock ∧
  shown s 0x0210 6 = [s.fallback.cause.cause.value, s.fallback.cause.subject] ++ wordBytes s.fallback.cause.time ∧
  shown s 0x0216 6 = [s.fallback.last.cause.value, s.fallback.last.subject] ++ wordBytes s.fallback.last.time ∧
  shown s 0x021C 4 = [0, 0, 0, 0]

/-- The records as a PEEK reads them: groups, drives, circuits, cores and alarm entries (R45, 11.2; the time left on an aspect timer:
log 27; an age in the decisecond of its event: log 49; a wait above 65535 ds: log 51). -/
def RecordsShown (s : State) : Prop :=
  (∀ g : GroupId,
    let x := s.groups[g]
    shown s (0x0220 + 16 * g.val) 16 =
      [x.kind.value, x.aspect.value,
       bitAt x.timer.isSome 0 ||| bitAt x.gain.isSome 1 ||| bitAt x.withheld 2 ||| bitAt x.evidence 3, x.redStatus.value]
      ++ twoBytes (match x.timer with | none => 0 | some t => s.timerLeft t)
      ++ twoBytes (match x.gain with | none => 0 | some e => e - s.timeBase)
      ++ twoBytes (s.timeBase - x.greenEnd)
      ++ twoBytes (match x.withheldSince with | none => 0 | some t => if x.withheld then s.timeBase - t else 0)
      ++ [0, 0, 0, 0]) ∧
  (∀ n : CircuitId,
    let d := s.drive.records[n]
    shown s (0x02A0 + 4 * n.val) 4 =
      [(s.commanded n).value, bitAt d.applied 0 ||| bitAt d.lockout 1, d.changedAt.extractLsb' 8 8, d.changedAt.extractLsb' 0 8]) ∧
  (∀ n : CircuitId,
    let r := s.circuits[n]
    shown s (0x0400 + 8 * n.val) 8 =
      [r.state.value, r.fail, r.dim, r.good, r.high, bitAt r.overloaded 0] ++ twoBytes r.lastCurrent) ∧
  (∀ n : CircuitId,
    let r := s.cable.cores[n]
    shown s (0x0500 + 8 * n.val) 8 =
      [r.state.value, r.missTotal, bitAt r.probe.isSome 0, BitVec.ofNat 8 r.lastAmplitude, BitVec.ofNat 8 r.lastWidth, 0]
      ++ twoBytes r.lastLeakage) ∧
  (∀ k, k < 32 →
    shown s (0x0600 + 12 * k) 12 =
      match s.alarms.list[k]? with
      | none => [0, 0, 0, 0, 0, 0, 0, 0, 0, 0, 0, 0]
      | some e =>
        [e.code.value, e.subject, bitAt (!e.active) 0 ||| bitAt e.notified 1, e.occurrences]
        ++ wordBytes e.firstRaised ++ wordBytes e.lastChange)

/-! ### Validation (R62 to R65) -/

/-- Checks 1 to 5: groups, conflict matrix, intergreens, stages and the general block (R62, R63). -/
def JunctionValid (c : Cfg) : Prop :=
  let yesNo : Byte → Prop := fun b => b = 0 ∨ b = 1
  let marked : GroupId → GroupId → Prop := fun i j => cfgMarked c i j = true
  let inStage : Nat → GroupId → Prop := fun t g => cfgInStage c t g = true
  (∀ g : GroupId,
    (cfgByte c 1 g.val = 0 ∨ cfgByte c 1 g.val = 1 ∨ cfgByte c 1 g.val = 2) ∧
    (cfgByte c 1 g.val = 1 → 10 ≤ cfgRedAmber c g ∧ cfgRedAmber c g ≤ 30 ∧ 30 ≤ cfgAmber c g ∧ cfgAmber c g ≤ 50) ∧
    (cfgByte c 1 g.val = 2 → 30 ≤ cfgClearance c g ∧ cfgClearance c g ≤ 300)) ∧
  (∀ i j : GroupId, (marked i j ↔ marked j i) ∧ ¬ marked i i ∧
    (marked i j → cfgKind c i ≠ .unused ∧ cfgKind c j ≠ .unused)) ∧
  (∀ i j : GroupId, marked i j →
    10 ≤ cfgIntergreen c i j ∧ (cfgKind c i = .vehicle → cfgAmber c i ≤ cfgIntergreen c i j) ∧
    (cfgKind c i = .pedestrian → cfgClearance c i ≤ cfgIntergreen c i j)) ∧
  (∀ t, t < 16 →
    (∀ i : GroupId, inStage t i → cfgKind c i ≠ .unused ∧ ∀ j : GroupId, inStage t j → ¬ marked i j) ∧
    ((∃ g : GroupId, inStage t g ∧ cfgKind c g = .vehicle) → 50 ≤ cfgForcedMin c t)) ∧
  cfgByte c 0 0 ≠ 0x00 ∧ cfgByte c 0 0 ≠ 0xFF ∧
  2 ≤ cfgSupervisionPeriod c ∧ cfgSupervisionPeriod c ≤ 60 ∧
  30 ≤ cfgStartRed c ∧ 30 ≤ cfgFailRed c ∧
  (∀ i j : GroupId, marked i j → cfgIntergreen c i j ≤ cfgStartRed c ∧ cfgIntergreen c i j ≤ cfgFailRed c) ∧
  50 ≤ cfgStallLimit c ∧ cfgStallLimit c ≤ 300 ∧ cfgIsolatedPlan c ≤ 3 ∧
  yesNo (cfgByte c 0 9) ∧ yesNo (cfgByte c 0 10) ∧ yesNo (cfgByte c 0 11)

/-- Checks 6 and 7: lamp map, proving limits and core settings (R64). -/
def LampsValid (c : Cfg) : Prop :=
  let lampByte : GroupId → Nat → Byte := fun g i => cfgByte c 8 (8 * g.val + i)
  let circuits : GroupId → LampAspect → Nat := fun g a => (cfgLampCircuits c g a).length
  let one : Nat → Prop := fun n => n = 1 ∨ n = 2
  (∀ n : CircuitId,
    ((groupIds.flatMap (fun g => [0, 1, 2, 3, 4, 5].map (lampByte g))).filter (fun b => b.toNat = n.val)).length ≤ 1) ∧
  (∀ g : GroupId, (∀ i, i < 6 → (lampByte g i).toNat < 24 ∨ lampByte g i = 255) ∧
    (cfgKind c g = .vehicle → one (circuits g .red) ∧ one (circuits g .amber) ∧ one (circuits g .green)) ∧
    (cfgKind c g = .pedestrian → one (circuits g .red) ∧ circuits g .amber = 0 ∧ one (circuits g .green)) ∧
    (cfgKind c g = .unused → circuits g .red = 0 ∧ circuits g .amber = 0 ∧ circuits g .green = 0)) ∧
  (∀ n : CircuitId, cfgProvingEnabled c n = true →
    cfgFailLimit c n < cfgLowLimit c n ∧ cfgLowLimit c n < cfgHighLimit c n ∧ cfgHighLimit c n < cfgCriticalLimit c n) ∧
  (∀ n : CircuitId, cfgCoreEnabled c n = true → cfgWidthMin c n < cfgWidthMax c n)

/-- Checks 8 and 9: plans, recognition table, aliases and demand map (R65). -/
def PlansAndRingValid (c : Cfg) : Prop :=
  let yesNo : Byte → Prop := fun b => b = 0 ∨ b = 1
  let station : Byte → Prop := fun b => b ≠ 0x00 ∧ b ≠ 0xFF
  (∀ p, p < 4 → (cfgByte c (4 + p) 0).toNat ≤ 16 ∧ ∀ k, k < (cfgByte c (4 + p) 0).toNat →
    cfgStepStage c p k ≤ 15 ∧ cfgStepMin c p k ≤ cfgStepMax c p k ∧
    ((∃ g : GroupId, cfgInStage c (cfgStepStage c p k) g = true ∧ cfgKind c g = .vehicle) → 50 ≤ cfgStepMin c p k) ∧
    yesNo (cfgByte c (4 + p) (16 + 8 * k + 1))) ∧
  1 ≤ cfgPlanLength c (cfgIsolatedPlan c) ∧
  (∀ e, e < 16 → (cfgEntryByte c e 0).getLsbD 0 = true →
    ((cfgEntryByte c e 0).getLsbD 2 = false → station (cfgEntryByte c e 2)) ∧ (cfgEntryByte c e 3).toNat ≤ 3 ∧
    (cfgEntryByte c e 4).toNat ≤ 2 ∧ (cfgEntryByte c e 5).toNat ≤ 46) ∧
  (∀ a, a < 4 → yesNo (cfgAliasByte c a 0) ∧ (cfgAliasByte c a 0 = 1 → station (cfgAliasByte c a 1)) ∧
    yesNo (cfgAliasByte c a 2)) ∧
  (∀ n : LineId, yesNo (cfgByte c 12 (4 * n.val)) ∧ yesNo (cfgByte c 12 (4 * n.val + 1)))

/-! ### The controls, each by the bytes that a LOAD stores to it (R49 to R57) -/

/-- COMMIT of a valid staging configuration: the image write starts (R50, R61, R66). -/
def ControlsAct.commit (now : Nat) (v : Option Byte) (s : State) : State :=
  if v = some 1 then { s with
    mgmt := { s.mgmt with checkCode := 0, checkSubject := 255, store := .image now false }
    nv := { s.nv with imageMarker := false } }
  else s

/-- RETIRE: the CLEARED entries and the overflow flag go (R50, R173). -/
def ControlsAct.retire (v : Option Byte) (s : State) : State :=
  if v = some 1 then { s with
    alarms := { s.alarms with list := s.alarms.list.filter (fun a => a.active), overflow := false } }
  else s

/-- CLEAR_COUNTERS: every counter is 0 (R50). -/
def ControlsAct.clearCounters (v : Option Byte) (s : State) : State :=
  if v = some 1 then { s with
    ring := { s.ring with counters :=
      { runt := 0, overlong := 0, lengthBad := 0, crcBad := 0, symbolBad := 0, transitOverrun := 0,
        insertAbandoned := 0, noticeLost := 0, echoMismatch := 0 } }
    classifier := { stripped := 0, tallyExpired := 0, blocked := 0, refusedCall := 0 }
    alarms := { s.alarms with lost := 0 } }
  else s

/-- STAGE_FLAG_CLEAR: the flags written 1 are cleared (R51). -/
def ControlsAct.stageFlagClear (hi lo : Option Byte) (s : State) : State :=
  { s with alarms := { s.alarms with stageEnd := s.alarms.stageEnd &&& ~~~(halfOf (hi.getD 0) (lo.getD 0)) } }

/-- MGMT_STATUS_CLEAR: bits 0 and 1 clear their flags, bit 2 the last check result (R51, R56). -/
def ControlsAct.mgmtStatusClear (v : Option Byte) (s : State) : State :=
  let bits : Byte := v.getD 0
  { s with mgmt := { s.mgmt with
    protectedWrite := s.mgmt.protectedWrite && !bits.getLsbD 0
    protectClearRefused := s.mgmt.protectClearRefused && !bits.getLsbD 1
    checkCode := if bits.getLsbD 2 then 0 else s.mgmt.checkCode
    checkSubject := if bits.getLsbD 2 then 255 else s.mgmt.checkSubject } }

/-- CLEAR_PROVING of the circuits that the byte names (R52, R135). -/
def ControlsAct.clearProving (v : Option Byte) (s : State) : State :=
  match v with
  | none => s
  | some n => s.clearProvingAll n

/-- CORE_RETEST of the cores that the byte names (R53, R155). -/
def ControlsAct.coreRetest (v : Option Byte) (s : State) : State :=
  match v with
  | none => s
  | some n => s.coreRetestAll n

/-- STATION_RESET: the request is pending until its frame has been sent (R57). -/
def ControlsAct.stationReset (v : Option Byte) (s : State) : State :=
  if v = some 1 then { s with mgmt := { s.mgmt with stationReset := .taken false } } else s

/-- PROTECTION, of which a LOAD may store one byte: the mask after it (R54, R55). -/
def ControlsAct.mask (hi lo : Option Byte) (m : Management) : Half :=
  let given : Half := halfOf (if hi.isSome then 0xFF else 0) (if lo.isSome then 0xFF else 0)
  let bits : Half := halfOf (hi.getD 0) (lo.getD 0)
  if m.bench then (m.mask &&& ~~~given) ||| (given &&& bits) else m.mask ||| (given &&& bits)

/-- A bit written 0 that stands outside BENCH sets PROTECT_CLEAR_REFUSED (R54). -/
def ControlsAct.refused (hi lo : Option Byte) (m : Management) : Bool :=
  let given : Half := halfOf (if hi.isSome then 0xFF else 0) (if lo.isSome then 0xFF else 0)
  let bits : Half := halfOf (hi.getD 0) (lo.getD 0)
  !m.bench && m.mask &&& given &&& ~~~bits != 0

/-- A change of the mask starts a mask write, after an image write in progress (R67). -/
def ControlsAct.maskWrite (now : Nat) (s : State) : State :=
  match s.mgmt.store with
  | .image since _ => { s with mgmt := { s.mgmt with store := .image since true } }
  | .idle | .mask _ => { s with mgmt := { s.mgmt with store := .mask now }, nv := { s.nv with maskMarker := false } }

/-- PROTECTION: the mask, the flag, and the mask write that a change starts (R54, R55, R67). -/
def ControlsAct.protection (now : Nat) (hi lo : Option Byte) (s : State) : State :=
  let u : State := { s with mgmt := { s.mgmt with
    mask := ControlsAct.mask hi lo s.mgmt
    protectClearRefused := s.mgmt.protectClearRefused || ControlsAct.refused hi lo s.mgmt } }
  if ControlsAct.mask hi lo s.mgmt = s.mgmt.mask then u else ControlsAct.maskWrite now u

/-- The controls that a LOAD stores to act in address order (R49). -/
def ControlsAct.all (now : Nat) (at_ : Nat → Option Byte) (s : State) : State :=
  [ControlsAct.commit now (at_ 0x0100), ControlsAct.retire (at_ 0x0101), ControlsAct.clearCounters (at_ 0x0102),
   ControlsAct.stageFlagClear (at_ 0x0103) (at_ 0x0104), ControlsAct.mgmtStatusClear (at_ 0x0105),
   ControlsAct.clearProving (at_ 0x0106), ControlsAct.coreRetest (at_ 0x0107), ControlsAct.stationReset (at_ 0x0108),
   ControlsAct.protection now (at_ 0x0109) (at_ 0x010A)].foldl (fun u act => act u) s

/-! ### Good frames -/

/-- The frame of a whole-frame command (log 6, log 7). -/
def frameOf : Instr → Option Frame
  | .echo _ e p => some (envFrame kindEcho e p)
  | .peek _ e p => some (envFrame kindPeek e p)
  | .load _ e p => some (envFrame kindLoad e p)
  | .commit _ e v => some (loadFrame e 0x0100 [v])
  | .retire _ e v => some (loadFrame e 0x0101 [v])
  | .clearCounters _ e v => some (loadFrame e 0x0102 [v])
  | .stageFlagClear _ e w => some (loadFrame e 0x0103 [hiByte w, loByte w])
  | .mgmtStatusClear _ e v => some (loadFrame e 0x0105 [v])
  | .clearProving _ e v => some (loadFrame e 0x0106 [v])
  | .coreRetest _ e v => some (loadFrame e 0x0107 [v])
  | .stationReset _ e v => some (loadFrame e 0x0108 [v])
  | .protection _ e w => some (loadFrame e 0x0109 [hiByte w, loByte w])
  | .callDemand _ e a => some (callFrame e callDemandCode a)
  | .plan _ e a => some (callFrame e callPlan a)
  | .force _ e a => some (callFrame e callForce a)
  | .hold _ e a => some (callFrame e callHold a)
  | .release _ e a => some (callFrame e callRelease a)
  | .allRed _ e a => some (callFrame e callAllRed a)
  | .resume _ e a => some (callFrame e callResume a)
  | .flash _ e a => some (callFrame e callFlash a)
  | .dark _ e a => some (callFrame e callDark a)
  | .time _ e a => some (callFrame e callTime a)
  | .powerOnReset _ | .resetEnd _ _ _ _ | .stationResetCarriedOut _ | .keepAliveMark _ | .markEnd _
  | .validMark _ _ | .invertedMark _ _ | .startMarker _ | .invertedStartMarker _ | .dataByte _ _
  | .invalidLineSymbol _ | .discardingSilence _ | .seekingTimeout _ | .silenceWatchdog _ | .endMarker _
  | .transmissionStart _ | .transmissionEnd _ | .insertionAttempt _ | .imageWriteEnd _ | .maskWriteEnd _
  | .contactSample _ _ | .heldExtension _ _ | .cabinetClockTick _ | .supervisionExpiry _ | .startRedExpiry _
  | .minExpiry _ | .extensionDeadline _ | .stall _ | .redAmberDue _ _ | .earliestGreenDue _ _
  | .redAmberExpiry _ _ | .amberExpiry _ _ | .clearanceExpiry _ _ | .halfCycleMark _ _ | .flashPhaseEdge _
  | .driveEnFall _ | .driveEnRise _ | .mainsLost _ | .probeRequest _ _ | .probeReturn _ _ _ _
  | .leakageTestStart _ | .leakageResult _ _ | .failRedExpiry _ => none

/-- The command begins or ends a reset. -/
def isReset : Instr → Bool
  | .powerOnReset _ => true
  | .resetEnd _ _ _ _ => true
  | .stationResetCarriedOut _ => true
  | _ => false

/-- The command may be the arrival of a good frame (R14). -/
def bringsFrame : Instr → Bool
  | .endMarker _ => true
  | c => (frameOf c).isSome

/-- The command comes in on RING IN or is a timeout of it. -/
def fromLine : Instr → Bool
  | .validMark _ _ | .invertedMark _ _ | .startMarker _ | .invertedStartMarker _ | .dataByte _ _
  | .invalidLineSymbol _ | .discardingSilence _ | .seekingTimeout _ | .silenceWatchdog _ => true
  | c => bringsFrame c

/-- Frames are received: no reset is in progress and the line is SEEKING or UP (R5, R7). -/
def Receiving (s : State) : Prop := s.phase = .notInReset ∧ s.ring.line.state ≠ .down

/-- The command hands on the good frame f: a whole-frame command of f, or the end marker that ends it (R14). -/
def Hands (i : Instr) (s : State) (f : Frame) : Prop :=
  (Receiving s ∧ frameOf i = some f ∧ f.payload.length ≤ 48) ∨
    (∃ dt bytes, s.phase = .notInReset ∧ i = .endMarker dt ∧ s.ring.reception = .collecting bytes false ∧
      frameError bytes false = none ∧ parseFrame bytes = some f)

/-- The state in which a good frame meets the transit queue: its time has passed, RING IN waits again, and in SEEKING the frame has
been counted (R7); that it is counted first, so that the second such frame finds the line UP, is the model's reading (log 21). -/
def received (dt : Nat) (s : State) : State := (elapse dt s).waiting.countGood

/-- A frame with this header, of a management kind, reaches step 3 OPEN: there is room for it, it is not the J824's own, its tally
is below 16, it is addressed to the J824 and carries verdict OPEN (R15, R26 to R28). -/
def Reaches (r : State) (e : Env) : Prop :=
  r.ring.transit.length < 4 ∧ e.src ≠ r.ownId ∧ e.tally.toNat < 16 ∧ (r.destIsOwn e.dest = true ∨ e.dest = broadcast) ∧
    e.flags &&& 0x07 = 0

/-- The CALL comes from the supervisor (R29). -/
def FromSupervisor (r : State) (e : Env) : Prop := e.src = cfgSupervisorId r.cfg

/-- The frame as it is forwarded: answered with the verdict, its dest rewritten where R31 says, tagged when it carries a TAKEN
STATION_RESET. -/
def answered (r : State) (f : Frame) (v : Verdict) (carriesReset : Bool) : QueuedFrame :=
  ⟨r.rewriteDest (f.answer v), carriesReset⟩

/-- The command i is answered with verdict v: the next state is `after`, with the answered frame at the tail of the transit queue
(R25, R28). -/
def Answers (i : Instr) (s : State) (f : Frame) (v : Verdict) (after : State) : Prop :=
  exec i s = .next (after.enqueue (answered (received i.dt s) f v false))

/-- A CALL of the command code with these arguments reaches the block that owns it (R28, R29). -/
def CallReaches (i : Instr) (s : State) (e : Env) (args : List Byte) : Prop :=
  Receiving s ∧ args.length ≤ 47 ∧ Reaches (received i.dt s) e ∧ FromSupervisor (received i.dt s) e

/-- What a TAKEN CALL brings after its own effect: the supervision timer restarts under SUPERVISED, and what follows at the same
instant (R112, R120). -/
def taken (t : State) : State := t.restartSupervision.settle

/-- The sequencer rests and nothing keeps the rest from ending: RUN, REST, no forced rest, no HOLD (R109). -/
def Resting (s : State) : Prop :=
  s.seq.mode = .run ∧ s.seq.step = .rest ∧ s.seq.force ≠ .forced ∧ s.seq.hold = false

/-- The sequencer rests under HOLD: RUN, REST, no forced rest (R109). -/
def HeldRest (s : State) : Prop :=
  s.seq.mode = .run ∧ s.seq.step = .rest ∧ s.seq.force ≠ .forced ∧ s.seq.hold = true

/-- No held extension is timed. -/
def noneHeld : Vector (Option Nat) 8 := Vector.replicate 8 none

/-- The junction is out of normal control in mode m: the sequencer's own fields at their values of R101, the fail-red timer NONE. -/
def OutOfControl (m : JunctionMode) (t : State) : Prop :=
  t.seq.mode = m ∧ t.seq.step = .none ∧ t.seq.stage = none ∧ t.seq.stepStart = none ∧ t.seq.minExpiry = none ∧
    t.seq.deadline = none ∧ t.seq.pendingForce = none ∧ t.seq.force = .none ∧ t.seq.hold = false ∧
    t.seq.isolatedSwitch = false ∧ t.seq.switchKept = false ∧ t.seq.resumeStep = none ∧ t.seq.startRed = none ∧ t.seq.transfer = .none

/-- The junction has entered START: the sequencer's own fields at the values of R101, from whatever mode it comes (the model's reading,
log 41), the transfer over (R70, R102). -/
def InStart (t : State) : Prop :=
  t.seq.mode = .start ∧ t.seq.step = .none ∧ t.seq.stage = none ∧ t.seq.stepStart = none ∧ t.seq.minExpiry = none ∧
    t.seq.deadline = none ∧ t.seq.pendingForce = none ∧ t.seq.force = .none ∧ t.seq.hold = false ∧
    t.seq.isolatedSwitch = false ∧ t.seq.switchKept = false ∧ t.seq.resumeStep = none ∧ t.seq.transfer = .none

/-- The change to stage t is complete: the groups of its green set are in GREEN with no gain request, no other is in AMBER or
GREEN_FLASH (R105). -/
def StageComplete (s : State) (t : Nat) : Prop :=
  ∀ g : GroupId,
    (cfgInStage s.cfg t g = true → s.groups[g].aspect = .green ∧ s.groups[g].gain = none) ∧
    (cfgInStage s.cfg t g = false → s.groups[g].aspect ≠ .amber ∧ s.groups[g].aspect ≠ .greenFlash)

/-- A transfer in CLEARING has every used group RED (R70). -/
def Cleared (s : State) : Prop :=
  (s.seq.mode = .run ∧ s.seq.step ≠ .enter ∨ s.seq.mode = .allRed) ∧ s.seq.transfer = .clearing ∧
    ∀ g : GroupId, s.groups[g].kind ≠ .unused → s.groups[g].aspect = .red

/-- What R101 keeps when normal control ends. -/
def PlansKept (s t : State) : Prop :=
  t.seq.pendingPlan = s.seq.pendingPlan ∧ t.seq.currentPlan = s.seq.currentPlan ∧
    t.seq.supervisedPlan = s.seq.supervisedPlan ∧ t.seq.pointer = s.seq.pointer ∧ t.seq.control = s.seq.control ∧
    t.seq.supervision = s.seq.supervision ∧ t.seq.clock = s.seq.clock

/-- Every used group shows these aspects and nothing else is asked of it; UNUSED groups are untouched (R81). -/
def Shows (vehicle pedestrian : Aspect) (s t : State) : Prop :=
  ∀ g : GroupId,
    (t.groups[g].kind = s.groups[g].kind) ∧
    (s.groups[g].kind = .unused → t.groups[g] = s.groups[g]) ∧
    (s.groups[g].kind = .vehicle → t.groups[g].aspect = vehicle) ∧
    (s.groups[g].kind = .pedestrian → t.groups[g].aspect = pedestrian) ∧
    (s.groups[g].kind ≠ .unused → t.groups[g].timer = none ∧ t.groups[g].gain = none ∧ t.groups[g].withheld = false ∧
      t.groups[g].withheldSince = none ∧
      t.groups[g].greenEnd = if s.groups[g].aspect = .green then s.stamp else s.groups[g].greenEnd)

end Sys2Proof.Safety
end

