-- ==== Sys2Proof/Certificates/Slice0/Obligations.lean ====
section
/-! DEFINITION. The statements for the provers, in the order of OBLIGATIONS.json. -/

open Sys2Proof Sys2Proof.Machine Sys2Proof.Safety

/-! ### The step -/

/-- A step runs the command at the front of the queue on the state with the queue's rest. -/
def Obligations.StepRunsFrontCommand : Prop :=
  ∀ (c : Instr) (q : List Instr) (s : State), s.pending = c :: q → step s = exec c { s with pending := q }

/-- Every command completes in every state; none touches the queue, and each lets exactly its own time pass (log 1). -/
def Obligations.CommandsCompleteAndPassTime : Prop :=
  ∀ (c : Instr) (s : State), ∃ t : State, exec c s = .next t ∧ t.pending = s.pending ∧ t.now = s.now + c.dt

/-- What a command that is no reset leaves alone: the phase, the straps, the classifier's counters, the table space and the protection but
for an arriving frame, the store but for an arriving frame and the ends of its writes, the clock but for its tick and an arriving frame,
the line and RING IN's frame but for what comes in on RING IN and its timeouts, RING OUT but for its own commands, and each level and count
of the lamp side and the contacts but for its own event. -/
def Obligations.OtherBlocksUntouched : Prop :=
  ∀ (c : Instr) (s t : State), exec c s = .next t → isReset c = false →
    t.phase = s.phase ∧ t.resetEnd = s.resetEnd ∧ t.mgmt.ident = s.mgmt.ident ∧ t.mgmt.bench = s.mgmt.bench ∧
    (bringsFrame c = false →
      t.classifier = s.classifier ∧ t.mgmt.staging = s.mgmt.staging ∧ t.mgmt.mask = s.mgmt.mask ∧
      t.mgmt.protectedWrite = s.mgmt.protectedWrite ∧ t.mgmt.protectClearRefused = s.mgmt.protectClearRefused ∧
      t.mgmt.checkCode = s.mgmt.checkCode ∧ t.mgmt.checkSubject = s.mgmt.checkSubject ∧
      t.ring.counters.echoMismatch = s.ring.counters.echoMismatch ∧
      t.ring.counters.transitOverrun = s.ring.counters.transitOverrun) ∧
    (bringsFrame c = false → (∀ dt, c ≠ .imageWriteEnd dt) → (∀ dt, c ≠ .maskWriteEnd dt) →
      t.nv = s.nv ∧ t.mgmt.store = s.mgmt.store) ∧
    (bringsFrame c = false → (∀ dt, c ≠ .cabinetClockTick dt) → t.seq.clock = s.seq.clock) ∧
    (bringsFrame c = false → (∀ dt, c ≠ .transmissionStart dt) → t.ring.transit = s.ring.transit) ∧
    (fromLine c = false → t.ring.line = s.ring.line ∧ t.ring.reception = s.ring.reception) ∧
    ((∀ dt, c ≠ .keepAliveMark dt) → (∀ dt, c ≠ .markEnd dt) → (∀ dt, c ≠ .transmissionStart dt) →
      (∀ dt, c ≠ .transmissionEnd dt) → (∀ dt, c ≠ .insertionAttempt dt) → t.ring.out = s.ring.out) ∧
    ((∀ dt levels, c ≠ .contactSample dt levels) → t.demand.contacts = s.demand.contacts) ∧
    ((∀ dt lasted, c ≠ .driveEnFall ⟨dt, lasted⟩) → (∀ dt lasted, c ≠ .driveEnRise ⟨dt, lasted⟩) →
      t.drive.driveEn = s.drive.driveEn ∧ t.drive.pin = s.drive.pin) ∧
    ((∀ dt, c ≠ .flashPhaseEdge dt) → t.drive.flashOn = s.drive.flashOn) ∧
    ((∀ dt values, c ≠ .halfCycleMark dt values) → t.drive.halfCycles = s.drive.halfCycles) ∧
    ((∀ dt values, c ≠ .halfCycleMark dt values) → (∀ dt, c ≠ .mainsLost dt) → t.scanner.mains = s.scanner.mains)

/-! ### Reset -/

/-- While a reset is in progress the inputs are not acted on (R181, log 13); the clock counts through a station reset (R122). -/
def Obligations.ResetInProgressActsOnNothing : Prop :=
  ∀ (c : Instr) (s : State), s.phase ≠ .notInReset → (∀ dt held, c ≠ .powerOnReset ⟨dt, held⟩) →
    (∀ dt ident bench drive, c ≠ .resetEnd dt ident bench drive) → (∀ dt, c ≠ .cabinetClockTick dt) →
    exec c s = .next (elapse c.dt s)

/-- Both resets empty the queues and count nothing for it (R22), silence RING OUT and put every output OFF. A power-on reset acts in any
phase, lasts while RESET is low (R181; its operand, log 14), sets the clock to 0 and clears the last-fallback record; a station reset is
carried out when the carrying frame has been sent and the store is IDLE, and keeps both; the store stays as it stands (R17, R57, R58, R66,
R122, R161). That the alarm list, the latch and the other reset values hold from the start of the reset, where R58 gives them at its end,
is the model's reading (log 13). -/
def Obligations.ResetsWipe : Prop :=
  ∀ (dt held : Nat) (s : State),
    let released : Nat := match s.phase with
      | .notInReset => s.now + dt + held
      | .powerOn before => max before (s.now + dt + held)
      | .station _ => s.now + dt + held
    let wiped : State → Prop := fun t =>
      t.ring.transit = [] ∧ t.ring.insertion = [] ∧ t.ring.nextAttempt = none ∧ t.ring.out = .idle ∧
      t.ring.counters.noticeLost = 0 ∧ t.ring.counters.insertAbandoned = 0 ∧
      (∀ n : CircuitId, t.drive.records[n].applied = false) ∧ t.alarms.list = [] ∧ t.fallback.latch = false ∧ t.nv = s.nv
    (∃ t, exec (.powerOnReset ⟨dt, held⟩) s = .next t ∧ t.phase = .powerOn released ∧ wiped t ∧
      t.seq.clock = 0 ∧ t.fallback.last = { cause := .none, subject := 255, time := 0 }) ∧
    (s.phase = .notInReset → s.mgmt.stationReset = .taken true → s.mgmt.store = .idle →
      ∃ t, exec (.stationResetCarriedOut dt) s = .next t ∧ t.phase = .station (s.now + dt) ∧ wiped t ∧
        t.seq.clock = s.seq.clock ∧ t.seq.clockSince = s.seq.clockSince ∧ t.fallback.last = s.fallback.last) ∧
    (s.phase = .notInReset → ¬ (s.mgmt.stationReset = .taken true ∧ s.mgmt.store = .idle) →
      exec (.stationResetCarriedOut dt) s = .next (elapse dt s))

/-- The end of either reset, 10 ms after RESET's return high or the station reset's start and not before: the straps are sampled,
configuration and mask loaded from the store, the mode DARK or START with its cause, START with its timer and every used group RED (R58, R73, R102); the alarm list holds LINE_DOWN, CONFIG_EMPTY
when no valid image is found and DRIVE_OFF when DRIVE_EN is low, each raised once (R172; their order is the model's choice, log 5). -/
def Obligations.ResetEndLoads : Prop :=
  ∀ (dt : Nat) (ident : BitVec 4) (bench drive : Bool) (s : State) (since : Nat),
    (s.phase = .powerOn since ∨ s.phase = .station since) →
    (s.now + dt < since + 10000 → exec (.resetEnd dt ident bench drive) s = .next (elapse dt s)) ∧
    (since + 10000 ≤ s.now + dt → ∃ t : State,
      exec (.resetEnd dt ident bench drive) s = .next t ∧ t.phase = .notInReset ∧ t.resetEnd = s.now + dt ∧
      t.mgmt.ident = ident ∧ t.mgmt.bench = bench ∧ t.drive.driveEn = drive ∧ t.drive.pin.level = drive ∧ t.nv = s.nv ∧
      t.mgmt.active = (if s.nv.imageMarker && s.nv.imageCheckMatches then some s.nv.image else none) ∧
      t.mgmt.staging = (if s.nv.imageMarker && s.nv.imageCheckMatches then s.nv.image else []) ∧
      t.mgmt.mask = (if s.nv.maskMarker then s.nv.maskWord else 0) ∧
      t.mgmt.store = .idle ∧ t.mgmt.activation = .none ∧ t.mgmt.stationReset = .none ∧
      t.seq.control = .isolated ∧ t.fallback.latch = false ∧
      (s.phase = .powerOn since → t.seq.clock = 0) ∧ (s.phase = .station since → t.seq.clock = s.seq.clock) ∧
      t.fallback.cause.subject = 255 ∧ t.fallback.cause.time = t.seq.clock ∧
      (t.mgmt.active = none → t.seq.mode = .dark ∧ t.fallback.cause.cause = .configEmpty) ∧
      (t.mgmt.active ≠ none → drive = false → t.seq.mode = .dark ∧ t.fallback.cause.cause = .driveOff) ∧
      (t.mgmt.active ≠ none → drive = true → InStart t ∧ t.fallback.cause.cause = .none ∧
        t.seq.startRed = some { load := cfgStartRed t.cfg, due := cfgStartRed t.cfg } ∧
        ∀ g : GroupId, t.groups[g].kind ≠ .unused → t.groups[g].aspect = .red) ∧
      t.alarms.lost = 0 ∧ t.alarms.overflow = false ∧
      t.alarms.list.map (fun e => e.code) =
        [.lineDown] ++ (if t.mgmt.active = none then [.configEmpty] else []) ++ (if drive then [] else [.driveOff]) ∧
      (∀ e ∈ t.alarms.list, e.subject = 255 ∧ e.active = true ∧ e.occurrences = 1 ∧
        e.firstRaised = t.seq.clock ∧ e.lastChange = t.seq.clock))

/-- The clock counts whole seconds, also through a station reset; it does not count in a power-on reset (R122). A second counted late leaves
the next where it was (the model's reading, log 37). -/
def Obligations.ClockCountsSeconds : Prop :=
  ∀ (dt : Nat) (s : State),
    ((s.phase = .notInReset ∨ ∃ x, s.phase = .station x) → s.seq.clockSince + 1000000 ≤ s.now + dt →
      exec (.cabinetClockTick dt) s = .next { elapse dt s with
        seq := { s.seq with clock := s.seq.clock + 1, clockSince := s.seq.clockSince + 1000000 } }) ∧
    ((∃ x, s.phase = .powerOn x) ∨ s.now + dt < s.seq.clockSince + 1000000 →
      exec (.cabinetClockTick dt) s = .next (elapse dt s))

/-! ### The send side of the ring -/

/-- RING OUT: a mark after 4 ms of IDLE, one byte time long; the oldest transit frame, taken when IDLE, with its tally one higher and its
check computed anew, for n + 2 byte times; each end makes it IDLE and restarts the keep-alive timer; the end of a frame that carried
STATION_RESET is recorded (R2, R16, R57). On the line every symbol is of normal sense: while IDLE there is none; a mark is one pulse
1.2 µs wide, within the squelch window of a receiver (R3), and RING OUT is busy with it for one byte time of 8 µs; a frame is its start
marker, its bytes in order and its end marker, of 8 µs each, and nothing after them (R1). -/
def Obligations.RingOutSends : Prop :=
  ∀ (dt : Nat) (s : State), s.phase = .notInReset →
    (s.ring.out = .idle → s.ring.idleSince + 4000 ≤ s.now + dt →
      exec (.keepAliveMark dt) s = .next { elapse dt s with ring := { s.ring with out := .mark (s.now + dt + 8) } }) ∧
    (∀ ends, s.ring.out = .mark ends → ends ≤ s.now + dt →
      exec (.markEnd dt) s = .next { elapse dt s with ring := { s.ring with out := .idle, idleSince := s.now + dt } }) ∧
    (∀ q rest, s.ring.out = .idle → s.ring.transit = q :: rest →
      exec (.transmissionStart dt) s = .next { elapse dt s with ring := { s.ring with
        transit := rest
        out := .frame { q.frame with tally := q.frame.tally + 1 }
          (crc (Frame.body { q.frame with tally := q.frame.tally + 1 })) q.carriesReset
          (s.now + dt + (q.frame.payload.length + 9 + 2) * 8) } }) ∧
    (∀ f check ends, s.ring.out = .frame f check false ends → ends ≤ s.now + dt →
      exec (.transmissionEnd dt) s =
        .next { elapse dt s with ring := { s.ring with out := .idle, idleSince := s.now + dt } }) ∧
    (∀ f check ends sent, s.ring.out = .frame f check true ends → ends ≤ s.now + dt →
      s.mgmt.stationReset = .taken sent →
      exec (.transmissionEnd dt) s =
        .next { elapse dt s with
          ring := { s.ring with out := .idle, idleSince := s.now + dt }
          mgmt := { s.mgmt with stationReset := .taken true } }) ∧
    (s.ring.out = .idle → s.ringOut = none) ∧
    (s.ring.out = .idle → s.ring.idleSince + 4000 ≤ s.now + dt → ∃ t : State, exec (.keepAliveMark dt) s = .next t ∧
      ∀ later, ({ t with now := t.now + later } : State).ringOut =
        if later < 8 then some { sense := .normal, kind := .mark 1200 } else none) ∧
    inSquelch 1200 = true ∧
    (∀ (f : Frame) (carrier : Bool) (start later : Nat),
      let sent : List SymbolKind := .startMarker :: (f.bytes.map .data ++ [.endMarker])
      f.lineMicros = sent.length * 8 ∧
      ({ s with
        now := start + later, ring := { s.ring with out := .frame f f.check carrier (start + f.lineMicros) } } : State).ringOut =
          if later < f.lineMicros then (sent[later / 8]?).map (fun k => { sense := .normal, kind := k }) else none)

/-- An insertion attempt that is due: the head is sent when the transit queue is empty, RING OUT IDLE and RING IN not receiving (R20);
otherwise it is deferred with a wait of r × 0.25 ms, r below 2^min(n,6) for every draw, or abandoned at the twelfth deferral (R21). The
draw is a free value, and the count of draws the model's own field (log 8); a new head's attempt falls due at once and is made by a
later command (the model's choice, log 48). -/
def Obligations.InsertionAttempts : Prop :=
  ∀ (dt at_ : Nat) (s : State) (e : InsertionEntry) (rest : List InsertionEntry), s.phase = .notInReset →
    s.ring.insertion = e :: rest → s.ring.nextAttempt = some at_ → at_ ≤ s.now + dt →
    let free := s.ring.transit = [] ∧ s.ring.out = .idle ∧ s.ring.reception = .waiting
    (free →
      exec (.insertionAttempt dt) s = .next { elapse dt s with ring := { s.ring with
        insertion := rest
        nextAttempt := if rest = [] then none else some (s.now + dt)
        out := .frame e.frame (crc e.frame.body) false (s.now + dt + (e.frame.payload.length + 9 + 2) * 8) } }) ∧
    (¬ free → e.deferrals + 1 < 12 → ∃ r, r < 2 ^ min (e.deferrals + 1) 6 ∧
      exec (.insertionAttempt dt) s = .next { elapse dt s with ring := { s.ring with
        insertion := { e with deferrals := e.deferrals + 1 } :: rest
        nextAttempt := some (s.now + dt + r * 250)
        draws := s.ring.draws + 1 } }) ∧
    (¬ free → 12 ≤ e.deferrals + 1 →
      exec (.insertionAttempt dt) s = .next { elapse dt s with ring := { s.ring with
        insertion := rest
        nextAttempt := if rest = [] then none else some (s.now + dt)
        counters := { s.ring.counters with insertAbandoned := satInc s.ring.counters.insertAbandoned } } })

/-- A NOTICE handed over: appended and numbered while fewer than 8 wait, the first with its attempt due at once; counted under NOTICE_LOST
and not numbered when 8 wait (R18). A raise that is answered ASSERT and a clear that is answered CLEAR hand one over, unless the code is
masked, and a stage left hands one over when its flag is set first and the stage is not masked: to the supervisor, with sub-kind, code,
subject, last-change and occurrences, or with the flag word and the clock (R174 to R178). That the handing over only makes the first
attempt due, and that an INSERTION_ATTEMPT after the whole step makes it, is the model's choice (log 48). -/
def Obligations.NoticeQueued : Prop :=
  (∀ (s : State) (code : AlarmCode) (subject : Byte) (stage : Nat),
    let supervisor : Byte := match s.mgmt.active with
      | none => 0x01
      | some m => Memory.read m 0
    let masks : Nat → Half := fun off => match s.mgmt.active with
      | none => 0
      | some m => halfOf (Memory.read m (0xD00 + off)) (Memory.read m (0xD00 + off + 1))
    let masked := (masks 0).getLsbD (code.value.toNat - 1)
    let clock := s.seq.clock
    let hand : List Byte → RingPort := fun payload => queueNotice s.now (0x40 + s.mgmt.ident.setWidth 8) supervisor payload s.ring
    let raised := raiseOn clock masked code subject s.alarms
    let cleared := clearOn clock masked code subject s.alarms
    let flags := s.alarms.stageEnd ||| ((1 : Half) <<< stage)
    s.raise code subject = { s with
      alarms := raised.1
      ring := match raised.2 with
        | none => s.ring
        | some e => if masked then s.ring else hand ([1, code.value, subject] ++ wordBytes clock ++ [e.occurrences]) } ∧
    s.clear code subject = { s with
      alarms := cleared.1
      ring := match cleared.2 with
        | none => s.ring
        | some e => if masked then s.ring else hand ([2, code.value, subject] ++ wordBytes clock ++ [e.occurrences]) } ∧
    s.stageEnd stage = { s with
      alarms := { s.alarms with stageEnd := flags }
      ring := if s.alarms.stageEnd.getLsbD stage = false ∧ s.mgmt.active ≠ none ∧ (masks 2).getLsbD stage = false
        then hand ([3, hiByte flags, loByte flags] ++ wordBytes clock) else s.ring }) ∧
  ∀ (now : Nat) (own dest : Byte) (payload : List Byte) (r : RingPort),
    (r.insertion.length < 8 →
      queueNotice now own dest payload r =
        { r with
          insertion := r.insertion ++
            [{ frame := { kind := 0x05, flags := 0, dest := dest, src := own, seq := r.insertionSeq, tally := 0,
                          payload := payload }, deferrals := 0 }]
          insertionSeq := r.insertionSeq + 1
          nextAttempt := if r.insertion = [] then some now else r.nextAttempt }) ∧
    (8 ≤ r.insertion.length →
      queueNotice now own dest payload r =
        { r with counters := { r.counters with noticeLost := satInc r.counters.noticeLost } })

/-! ### The receive side of the ring -/

/-- A valid mark. While a frame is collected it is recorded in it as an invalid symbol, and in discarding it only ends the silence, in every
line state and whatever its width (R11, R13, log 22). While no frame is being received: a pulse outside the squelch window is ignored; in DOWN the line enters SEEKING; in UP
only the activity moves; in SEEKING a new run starts or the run goes on, the third mark takes the line UP and clears LINE_DOWN, and a
spacing outside 2 to 8 ms takes it DOWN and at once back to SEEKING (R3, R5, R6, R8, R9). -/
def Obligations.ValidMarks : Prop :=
  (∀ (dt width : Nat) (s : State), s.phase = .notInReset →
    let withReception : Reception → State := fun x => { elapse dt s with ring := { s.ring with reception := x } }
    (∀ bytes bad, s.ring.reception = .collecting bytes bad →
      exec (.validMark dt width) s = .next (withReception (.collecting bytes true))) ∧
    (∀ last, s.ring.reception = .discarding last →
      exec (.validMark dt width) s = .next (withReception (.discarding (s.now + dt))))) ∧
  ∀ (dt width : Nat) (s : State), s.phase = .notInReset → s.ring.reception = .waiting →
    let now := s.now + dt
    let withLine : LineRecord → State := fun l => { elapse dt s with ring := { s.ring with line := l } }
    (¬ (800 ≤ width ∧ width ≤ 1600) → exec (.validMark dt width) s = .next (elapse dt s)) ∧
    (800 ≤ width → width ≤ 1600 →
      (s.ring.line.state = .down →
        exec (.validMark dt width) s = .next (withLine { s.ring.line with
          state := .seeking, markRun := 1, lastMark := some now, lastActivity := now, goodFrames := 0,
          invertedMarks := 0 })) ∧
      (s.ring.line.state = .up →
        exec (.validMark dt width) s = .next (withLine { s.ring.line with lastActivity := now })) ∧
      (s.ring.line.state = .seeking → s.ring.line.lastMark = none →
        exec (.validMark dt width) s = .next (withLine { s.ring.line with
          markRun := 1, lastMark := some now, lastActivity := now, invertedMarks := 0 })) ∧
      (∀ last, s.ring.line.state = .seeking → s.ring.line.lastMark = some last → 2000 ≤ now - last → now - last ≤ 8000 →
        s.ring.line.markRun + 1 < 3 →
        exec (.validMark dt width) s = .next (withLine { s.ring.line with
          markRun := s.ring.line.markRun + 1, lastMark := some now, lastActivity := now, invertedMarks := 0 })) ∧
      (∀ last, s.ring.line.state = .seeking → s.ring.line.lastMark = some last → 2000 ≤ now - last → now - last ≤ 8000 →
        3 ≤ s.ring.line.markRun + 1 → ∃ t : State, exec (.validMark dt width) s = .next t ∧
          t = { elapse dt s with ring := t.ring, alarms := t.alarms } ∧
          t.ring.line = { s.ring.line with
            state := .up, markRun := 3, lastMark := some now, lastActivity := now, invertedMarks := 0 } ∧
          ∀ e ∈ t.alarms.list, e.code = .lineDown → e.subject = 255 → e.active = false) ∧
      (∀ last, s.ring.line.state = .seeking → s.ring.line.lastMark = some last →
        ¬ (2000 ≤ now - last ∧ now - last ≤ 8000) → ∃ t : State, exec (.validMark dt width) s = .next t ∧
          t = { elapse dt s with ring := t.ring, alarms := t.alarms } ∧
          t.ring.line = { s.ring.line with
            state := .seeking, markRun := 1, lastMark := some now, lastActivity := now, goodFrames := 0,
            invertedMarks := 0 } ∧
          t.alarms = (raiseOn s.seq.clock (cfgNoticeMasked s.cfg .lineDown) .lineDown 255 s.alarms).1))

/-- Symbols of the opposite sense. While a frame is collected a mark is recorded in it as an invalid symbol, and in discarding it only ends
the silence, in every line state and whatever its width (R11, R13, log 22). While no frame is being received, one outside the squelch window
is ignored (R3); one of it is ignored in UP and counted in DOWN and SEEKING; the third flips the polarity and is taken again as a valid
mark. A start marker is no frame start in UP, where it only ends the silence that discarding waits for (log 22); in DOWN it flips the
polarity; in SEEKING it flips it and starts a frame, an open one being ended as bad (R5, R6, R8, R10). -/
def Obligations.InvertedSymbols : Prop :=
  ∀ (dt width : Nat) (s : State), s.phase = .notInReset →
    let now := s.now + dt
    let withReception : Reception → State := fun x => { elapse dt s with ring := { s.ring with reception := x } }
    let inWindow : Prop := 800 ≤ width ∧ width ≤ 1600
    let flipped : Polarity := if s.ring.line.polarity = .normal then .inverted else .normal
    let started : LineRecord := { s.ring.line with
      polarity := flipped, invertedMarks := 0, goodFrames := 0, markRun := 0, lastMark := none, lastActivity := now }
    (∀ bytes bad, s.ring.reception = .collecting bytes bad →
      exec (.invertedMark dt width) s = .next (withReception (.collecting bytes true))) ∧
    (∀ last, s.ring.reception = .discarding last →
      exec (.invertedMark dt width) s = .next (withReception (.discarding now)) ∧
      (s.ring.line.state = .up → exec (.invertedStartMarker dt) s = .next (withReception (.discarding now)))) ∧
    (s.ring.reception = .waiting → ¬ inWindow ∨ s.ring.line.state = .up →
      exec (.invertedMark dt width) s = .next (elapse dt s)) ∧
    (s.ring.reception = .waiting → inWindow → s.ring.line.state ≠ .up → s.ring.line.invertedMarks + 1 < 3 →
      exec (.invertedMark dt width) s = .next { elapse dt s with ring := { s.ring with line := { s.ring.line with
        invertedMarks := s.ring.line.invertedMarks + 1 } } }) ∧
    (s.ring.reception = .waiting → inWindow → s.ring.line.state ≠ .up → 3 ≤ s.ring.line.invertedMarks + 1 →
      exec (.invertedMark dt width) s = .next { elapse dt s with ring := { s.ring with line := { s.ring.line with
        state := .seeking, polarity := flipped, markRun := 1, lastMark := some now, lastActivity := now, goodFrames := 0,
        invertedMarks := 0 } } }) ∧
    (s.ring.line.state = .up → (∀ t, s.ring.reception ≠ .discarding t) →
      exec (.invertedStartMarker dt) s = .next (elapse dt s)) ∧
    (s.ring.line.state = .down →
      exec (.invertedStartMarker dt) s = .next { elapse dt s with ring := { s.ring with line := { s.ring.line with
        polarity := flipped, invertedMarks := 0 } } }) ∧
    (s.ring.line.state = .seeking → (∀ bytes bad, s.ring.reception ≠ .collecting bytes bad) →
      exec (.invertedStartMarker dt) s = .next { elapse dt s with ring := { s.ring with
        line := started, reception := .collecting [] false } }) ∧
    (∀ bytes bad, s.ring.line.state = .seeking → s.ring.reception = .collecting bytes bad → ∃ e : FrameError,
      frameError bytes true = some e ∧
      exec (.invertedStartMarker dt) s = .next { elapse dt s with ring := { s.ring with
        line := started, reception := .collecting [] false, counters := s.ring.counters.count e } })

/-- The collection of a frame. A start marker opens one in SEEKING and UP, is line activity, ends the mark run in SEEKING, and ends an
open frame as a bad one; bytes are collected, the 58th cuts the frame off as OVERLONG; an invalid symbol is recorded; 64 µs of silence
end discarding, in which bytes and end markers do nothing else (R5, R6, R8, R11, R13, R14). -/
def Obligations.FramesCollected : Prop :=
  ∀ (dt : Nat) (b : Byte) (s : State), s.phase = .notInReset →
    let now := s.now + dt
    let withReception : Reception → State := fun x => { elapse dt s with ring := { s.ring with reception := x } }
    let started : LineRecord := if s.ring.line.state = .seeking then
        { s.ring.line with markRun := 0, lastMark := none, lastActivity := now }
      else { s.ring.line with lastActivity := now }
    (s.ring.line.state = .down → exec (.startMarker dt) s = .next (elapse dt s)) ∧
    (s.ring.line.state ≠ .down → (∀ bytes bad, s.ring.reception ≠ .collecting bytes bad) →
      exec (.startMarker dt) s = .next { elapse dt s with ring := { s.ring with
        line := started, reception := .collecting [] false } }) ∧
    (∀ bytes bad, s.ring.line.state ≠ .down → s.ring.reception = .collecting bytes bad → ∃ e : FrameError,
      frameError bytes true = some e ∧
      exec (.startMarker dt) s = .next { elapse dt s with ring := { s.ring with
        line := started, reception := .collecting [] false, counters := s.ring.counters.count e } }) ∧
    (∀ bytes bad, s.ring.reception = .collecting bytes bad →
      (bytes.length + 1 < 58 → exec (.dataByte dt b) s = .next (withReception (.collecting (bytes ++ [b]) bad))) ∧
      (58 ≤ bytes.length + 1 →
        exec (.dataByte dt b) s = .next { elapse dt s with ring := { s.ring with
          reception := .discarding now
          counters := { s.ring.counters with overlong := satInc s.ring.counters.overlong } } }) ∧
      exec (.invalidLineSymbol dt) s = .next (withReception (.collecting bytes true))) ∧
    (∀ last, s.ring.reception = .discarding last →
      (last + 64 ≤ now → exec (.discardingSilence dt) s = .next (withReception .waiting)) ∧
      exec (.dataByte dt b) s = .next (withReception (.discarding now)) ∧
      exec (.invalidLineSymbol dt) s = .next (withReception (.discarding now)) ∧
      exec (.endMarker dt) s = .next (withReception (.discarding now)))

/-- The line enters DOWN after 8 ms of SEEKING or 20 ms of UP without activity: the receive error counters 0, an open frame dropped,
the run counts 0, LINE_DOWN raised, the polarity, the transit queue and RING OUT kept (R7, R8, R9). -/
def Obligations.SilenceTakesLineDown : Prop :=
  ∀ (dt : Nat) (s : State), s.phase = .notInReset →
    let fallen : State → Prop := fun t =>
      t = { elapse dt s with ring := t.ring, alarms := t.alarms } ∧
      t.ring.line = { s.ring.line with
        state := .down, markRun := 0, goodFrames := 0, invertedMarks := 0, lastMark := none } ∧
      t.ring.reception = .waiting ∧ t.ring.transit = s.ring.transit ∧ t.ring.out = s.ring.out ∧
      t.ring.counters.runt = 0 ∧ t.ring.counters.overlong = 0 ∧ t.ring.counters.lengthBad = 0 ∧
      t.ring.counters.crcBad = 0 ∧ t.ring.counters.symbolBad = 0 ∧
      t.ring.counters.transitOverrun = s.ring.counters.transitOverrun ∧
      t.alarms = (raiseOn s.seq.clock (cfgNoticeMasked s.cfg .lineDown) .lineDown 255 s.alarms).1
    (s.ring.line.state = .seeking → s.ring.line.lastActivity + 8000 ≤ s.now + dt →
      ∃ t, exec (.seekingTimeout dt) s = .next t ∧ fallen t) ∧
    (s.ring.line.state = .up → s.ring.line.lastActivity + 20000 ≤ s.now + dt →
      ∃ t, exec (.silenceWatchdog dt) s = .next t ∧ fallen t)

/-- The five tests of an ended frame, in their order (OVERLONG is decided at the 58th byte); an end marker of a bad frame increments the one
counter of its first failing test and drops the frame (R14, R24). -/
def Obligations.FramesValidated : Prop :=
  (∀ (bytes : List Byte) (bad : Bool),
    let short := bytes.length < 9
    let lengthWrong := (bytes[6]?.getD 0).toNat ≠ bytes.length - 9
    let checkWrong := crc (bytes.take (bytes.length - 2)) ≠
      halfOf (bytes[bytes.length - 2]?.getD 0) (bytes[bytes.length - 1]?.getD 0)
    (frameError bytes bad = some .runt ↔ short) ∧
    (frameError bytes bad = some .lengthBad ↔ ¬ short ∧ lengthWrong) ∧
    (frameError bytes bad = some .crcBad ↔ ¬ short ∧ ¬ lengthWrong ∧ checkWrong) ∧
    (frameError bytes bad = some .symbolBad ↔ ¬ short ∧ ¬ lengthWrong ∧ ¬ checkWrong ∧ bad = true) ∧
    (frameError bytes bad = none ↔ ¬ short ∧ ¬ lengthWrong ∧ ¬ checkWrong ∧ bad = false)) ∧
  (∀ (dt : Nat) (s : State) (bytes : List Byte) (bad : Bool) (e : FrameError), s.phase = .notInReset →
    s.ring.reception = .collecting bytes bad → frameError bytes bad = some e →
    exec (.endMarker dt) s = .next { elapse dt s with ring := { s.ring with
      reception := .waiting
      counters := match e with
        | .runt => { s.ring.counters with runt := satInc s.ring.counters.runt }
        | .lengthBad => { s.ring.counters with lengthBad := satInc s.ring.counters.lengthBad }
        | .crcBad => { s.ring.counters with crcBad := satInc s.ring.counters.crcBad }
        | .symbolBad => { s.ring.counters with symbolBad := satInc s.ring.counters.symbolBad } } })

/-- What RING OUT sends, RING IN accepts: the bytes of any frame with up to 48 payload bytes are a good frame and read back as that
frame (R12, R14, R179). -/
def Obligations.SentFramesReadBack : Prop :=
  ∀ f : Frame, f.payload.length ≤ 48 → frameError f.bytes false = none ∧ parseFrame f.bytes = some f

/-- The arrival of a good frame, by end marker or whole-frame command. In SEEKING it is counted, the second takes the line UP and clears
LINE_DOWN; in UP nothing of the line changes; in DOWN a whole-frame command does nothing (log 6). With 4 frames in the transit queue it is
discarded and counted under TRANSIT_OVERRUN (R5, R7, R9, R15); that it is counted for the line first is the model's reading (log 21). A frame that arrives symbol
by symbol does at its END_MARKER what its
whole-frame command does, so that what is said of ECHO, PEEK, LOAD, the controls and the CALL commands holds of it too (R28, log 6). A CALL
of the supervisor that no such command spells, with no payload or a code that names no command, is answered RANGE (R112). -/
def Obligations.GoodFramesArrive : Prop :=
  (∀ (dt : Nat) (s : State),
    (s.ring.line.state = .up → received dt s = (elapse dt s).waiting) ∧
    (s.ring.line.state = .seeking → s.ring.line.goodFrames = 0 →
      received dt s = { (elapse dt s).waiting with ring := { (elapse dt s).waiting.ring with
        line := { s.ring.line with goodFrames := 1 } } }) ∧
    (s.ring.line.state = .seeking → 1 ≤ s.ring.line.goodFrames →
      (received dt s).ring.line = { s.ring.line with
        state := .up, goodFrames := 2, invertedMarks := 0, lastActivity := s.now + dt } ∧
      ∀ e ∈ (received dt s).alarms.list, e.code = .lineDown → e.subject = 255 → e.active = false)) ∧
  (∀ (i : Instr) (s : State) (f : Frame), frameOf i = some f → s.phase = .notInReset → s.ring.line.state = .down →
    exec i s = .next (elapse i.dt s)) ∧
  (∀ (i : Instr) (s : State) (f : Frame), Hands i s f → 4 ≤ (received i.dt s).ring.transit.length →
    exec i s = .next { received i.dt s with ring := { (received i.dt s).ring with
      counters := { (received i.dt s).ring.counters with
        transitOverrun := satInc (received i.dt s).ring.counters.transitOverrun } } }) ∧
  (∀ (i : Instr) (s : State) (f : Frame), Receiving s → frameOf i = some f → f.payload.length ≤ 48 →
    Hands (.endMarker i.dt) s f → exec (.endMarker i.dt) s = exec i s) ∧
  (∀ (dt : Nat) (s : State) (e : Env) (payload : List Byte), Hands (.endMarker dt) s (envFrame 0x01 e payload) →
    Reaches (received dt s) e → FromSupervisor (received dt s) e →
    (∀ code rest, payload = code :: rest → code.toNat = 0 ∨ 0x0A < code.toNat) →
    Answers (.endMarker dt) s (envFrame 0x01 e payload) .range (received dt s))

/-! ### Classification -/

/-- A frame whose src is the own identity is removed and STRIPPED incremented, whatever else it holds (R26). -/
def Obligations.OwnReturnStripped : Prop :=
  ∀ (i : Instr) (s : State) (f : Frame), Hands i s f → (received i.dt s).ring.transit.length < 4 →
    f.src = s.ownId →
    exec i s = .next { received i.dt s with classifier := { s.classifier with
      stripped := satInc s.classifier.stripped } }

/-- A frame that arrives with a tally of 16 or more and is not the J824's own is removed and TALLY_EXPIRED incremented (R27). -/
def Obligations.TallyExpired : Prop :=
  ∀ (i : Instr) (s : State) (f : Frame), Hands i s f → (received i.dt s).ring.transit.length < 4 →
    f.src ≠ s.ownId → 16 ≤ f.tally.toNat →
    exec i s = .next { received i.dt s with classifier := { s.classifier with
      tallyExpired := satInc s.classifier.tallyExpired } }

/-- What is neither stripped, expired nor answered. A management frame for the J824 that already carries a verdict is forwarded untouched
(R28). Other traffic goes by the recognition table: the first valid matching entry passes, snoops or blocks it, no match passes it; SNOOP
of a DEMAND frame raises the lines that its word names within the entry's set, none when the word lies beyond the payload (R32 to R34). The
J824's own dests are its identity and its active aliases (R25, R30); a management frame for it is a CALL, LOAD, PEEK or ECHO to one of them
or to BROADCAST (R28); an entry matches when it is valid and its kind, its src, each unless ANY, and its dest class match (R32). -/
def Obligations.OtherFramesClassified : Prop :=
  (∀ (s : State) (f : Frame),
    let own : Prop := f.dest = 0x40 + s.mgmt.ident.setWidth 8 ∨
      ∃ a, a < 4 ∧ cfgAliasByte s.cfg a 0 = 1 ∧ cfgAliasByte s.cfg a 1 = f.dest
    (s.destIsOwn f.dest = true ↔ own) ∧
    (s.isManagement f = true ↔
      (f.kind = 0x01 ∨ f.kind = 0x03 ∨ f.kind = 0x04 ∨ f.kind = 0x06) ∧ (own ∨ f.dest = 0xFF)) ∧
    ∀ e : Nat,
      let flag : Nat → Prop := fun k => (cfgEntryByte s.cfg e 0).getLsbD k = true
      let class_ : Nat := (cfgEntryByte s.cfg e 3).toNat
      class_ ≤ 3 → (s.entryMatches f e = true ↔
        flag 0 ∧ (flag 1 ∨ cfgEntryByte s.cfg e 1 = f.kind) ∧ (flag 2 ∨ cfgEntryByte s.cfg e 2 = f.src) ∧
          (class_ = 0 → own) ∧ (class_ = 1 → f.dest = 0xFF) ∧ (class_ = 2 → ¬ own ∧ f.dest ≠ 0xFF))) ∧
  ∀ (i : Instr) (s : State) (f : Frame), Hands i s f → (received i.dt s).ring.transit.length < 4 →
    f.src ≠ s.ownId → f.tally.toNat < 16 →
    let r := received i.dt s
    let entry := (List.range 16).find? (s.entryMatches f)
    let forwarded : Prop := exec i s = .next (r.enqueue ⟨f, false⟩)
    (s.isManagement f = true → f.flags &&& 0x07 ≠ 0 → forwarded) ∧
    (s.isManagement f = false → entry = none → forwarded) ∧
    (∀ e, s.isManagement f = false → entry = some e →
      let p := (cfgEntryByte s.cfg e 5).toNat
      (cfgEntryByte s.cfg e 4 = 0 → forwarded) ∧
      (cfgEntryByte s.cfg e 4 = 2 →
        exec i s = .next { r with classifier := { s.classifier with blocked := satInc s.classifier.blocked } }) ∧
      (cfgEntryByte s.cfg e 4 = 1 → f.kind ≠ 0x02 ∨ f.payload.length ≤ p + 1 → forwarded) ∧
      (∀ hi lo, cfgEntryByte s.cfg e 4 = 1 → f.kind = 0x02 → f.payload[p]? = some hi → f.payload[p + 1]? = some lo →
        let lines := halfOf hi lo &&& halfOf (cfgEntryByte s.cfg e 6) (cfgEntryByte s.cfg e 7)
        (lines = 0 → forwarded) ∧
        (lines ≠ 0 → exec i s = .next (((r.raiseLines lines).settle).enqueue ⟨f, false⟩))))

/-- A CALL from another source than the supervisor is answered REFUSED and counted, and not acted on (R29). -/
def Obligations.CallRefusedForSource : Prop :=
  ∀ (i : Instr) (s : State) (e : Env) (code : Byte) (args : List Byte), Receiving s → args.length ≤ 47 →
    frameOf i = some (callFrame e code args) → Reaches (received i.dt s) e → ¬ FromSupervisor (received i.dt s) e →
    Answers i s (callFrame e code args) .refused
      { received i.dt s with classifier := { s.classifier with refusedCall := satInc s.classifier.refusedCall } }

/-- An answered frame: the verdict stands in bits 2 to 0 of the flags, bits 7 to 3 stay (R179); the dest becomes the own identity when it
is an active alias whose lowest entry has the rewrite flag, and otherwise stays (R31); no other field changes. -/
def Obligations.AnswersWritten : Prop :=
  ∀ (s : State) (f : Frame) (v : Verdict) (tag : Bool),
    let a := (answered s f v tag).frame
    a.flags &&& 0x07 = v.code ∧ a.flags &&& 0xF8 = f.flags &&& 0xF8 ∧
    (a.dest = if f.dest ≠ broadcast ∧ cfgIsAlias s.cfg f.dest = true ∧ cfgAliasRewrites s.cfg f.dest = true then s.ownId
      else f.dest) ∧
    { a with flags := f.flags, dest := f.dest } = f

/-! ### ECHO, PEEK and LOAD -/

/-- An ECHO for the J824: TAKEN when the echo check is disabled or every payload byte i is i XOR seq, else RANGE with ECHO_MISMATCH
incremented (R23). -/
def Obligations.EchoAnswered : Prop :=
  ∀ (dt : Nat) (e : Env) (p : List Byte) (s : State), Receiving s → p.length ≤ 48 → Reaches (received dt s) e →
    let r := received dt s
    let matches_ := ∀ i b, p[i]? = some b → b = BitVec.ofNat 8 i ^^^ e.seq
    (cfgEchoCheck s.cfg = false ∨ matches_ → Answers (.echo dt e p) s (envFrame 0x06 e p) .taken r) ∧
    (cfgEchoCheck s.cfg = true → ¬ matches_ →
      Answers (.echo dt e p) s (envFrame 0x06 e p) .range
        { r with ring := { r.ring with
          counters := { r.ring.counters with echoMismatch := satInc r.ring.counters.echoMismatch } } })

/-- A PEEK for the J824: RANGE with the answer area as it arrived for a bad form (the payload is not 3 + count bytes with a count of 1 to
44) or a span whose first and last byte lie in no one window; otherwise TAKEN with the bytes of the span; no state changes but the
transit queue (R43, R44). Each byte is the current value of the state it shows, a byte that no field uses 0 (R45, 11.2, 11.3); the line
record is read after the frame has been counted for it (the model's reading, log 21). Until the decisecond step after its event a timer
shows the value it was loaded with (the model's reading, log 27), and the age of a green-end time or a withheld-since 0 (its choice, log
49). A wait for an earliest green of more than 65535 ds reads 65535 (its choice, log 51). -/
def Obligations.PeekAnswered : Prop :=
  ValuesShown ∧
  (∀ s : State, PlainWindowsShown s ∧ StatusShown s ∧ RecordsShown s) ∧
  (∀ span : Span, span.leaves = false ↔
    ∃ w ∈ windowBounds, w.1 ≤ span.start ∧ span.start ≤ w.2 ∧ w.1 ≤ span.start + span.count - 1 ∧
      span.start + span.count - 1 ≤ w.2) ∧
  (∀ (p : List Byte) (span : Span) (data : List Byte),
    parseSpan p = some (span, data) ↔
      ∃ hi lo n, p = hi :: lo :: n :: data ∧ data.length = n.toNat ∧ 1 ≤ n.toNat ∧ n.toNat ≤ 44 ∧
        span = { start := (halfOf hi lo).toNat, count := n.toNat }) ∧
  ∀ (dt : Nat) (e : Env) (p : List Byte) (s : State), Receiving s → p.length ≤ 48 → Reaches (received dt s) e →
    let r := received dt s
    (parseSpan p = none → Answers (.peek dt e p) s (envFrame 0x04 e p) .range r) ∧
    (∀ span data, parseSpan p = some (span, data) →
      (span.leaves = true → Answers (.peek dt e p) s (envFrame 0x04 e p) .range r) ∧
      (span.leaves = false →
        Answers (.peek dt e p) s
          (envFrame 0x04 e (p.take 3 ++ (List.range span.count).map (fun i => r.peekByte (span.start + i)))) .taken r))

/-- A LOAD that fails a test has no effect: RANGE by R46 (its span lies neither in the control window nor in staging blocks 0 to 13, or the
data for CLEAR_PROVING or CORE_RETEST is 24 to 254), BUSY by R47 (a staging byte, COMMIT, STATION_RESET or PROTECTION while the Management
Unit is held), PROTECTED by R48 (a byte of a protected staging block), which sets PROTECTED_WRITE. -/
def Obligations.LoadRefused : Prop :=
  (∀ (span : Span) (data : List Byte) (mask : Half), 1 ≤ span.count →
    let within : Nat → Nat → Prop := fun first past => first ≤ span.start ∧ span.start + span.count ≤ past
    let covers : Nat → Prop := fun a => span.start ≤ a ∧ a < span.start + span.count
    let bad : Nat → Prop := fun a => covers a ∧ ∃ v, data[a - span.start]? = some v ∧ 24 ≤ v.toNat ∧ v.toNat ≤ 254
    (loadOutOfRange span data = true ↔
      ¬ (within 0x0100 0x0200 ∨ within 0x1000 0x1E00) ∨ bad 0x0106 ∨ bad 0x0107) ∧
    (coversGated span = true ↔
      within 0x1000 0x2000 ∨ covers 0x0100 ∨ covers 0x0108 ∨ covers 0x0109 ∨ covers 0x010A) ∧
    (coversProtected span mask = true ↔
      within 0x1000 0x2000 ∧ ∃ b a, b < 16 ∧ mask.getLsbD b = true ∧ covers a ∧ 0x1000 + 256 * b ≤ a ∧ a < 0x1100 + 256 * b)) ∧
  (∀ s : State, s.held = true ↔
    s.mgmt.store ≠ .idle ∨ s.mgmt.activation = .pending ∨ s.mgmt.stationReset ≠ .none) ∧
  ∀ (dt : Nat) (e : Env) (p : List Byte) (s : State), Receiving s → p.length ≤ 48 → Reaches (received dt s) e →
    let r := received dt s
    (parseSpan p = none → Answers (.load dt e p) s (envFrame 0x03 e p) .range r) ∧
    (∀ span data, parseSpan p = some (span, data) →
      (loadOutOfRange span data = true → Answers (.load dt e p) s (envFrame 0x03 e p) .range r) ∧
      (loadOutOfRange span data = false → coversGated span = true → r.held = true →
        Answers (.load dt e p) s (envFrame 0x03 e p) .busy r) ∧
      (loadOutOfRange span data = false → (coversGated span = true → r.held = false) →
        coversProtected span r.mgmt.mask = true →
        Answers (.load dt e p) s (envFrame 0x03 e p) .protectedBlock
          { r with mgmt := { r.mgmt with protectedWrite := true } }))

/-- A LOAD into the staging window that passes the tests: each byte is stored at its address, every other staging byte reads as before,
and nothing else changes (R48, R49). A LOAD into the control window that passes them hands each byte to its control, and the controls act
in address order; a COMMIT whose validation fails is INVALID and no control acts (R49 to R57, R61, R67). -/
def Obligations.LoadStores : Prop :=
  (∀ (dt : Nat) (e : Env) (p : List Byte) (s : State) (span : Span) (data : List Byte),
    Receiving s → p.length ≤ 48 → Reaches (received dt s) e → parseSpan p = some (span, data) →
    0x0100 ≤ span.start → span.start + span.count ≤ 0x0200 → loadOutOfRange span data = false →
    (coversGated span = true → s.held = false) →
    let r := received dt s
    let at_ : Nat → Option Byte := fun a =>
      if span.start ≤ a ∧ a < span.start + span.count then data[a - span.start]? else none
    (at_ 0x0100 ≠ some 1 ∨ validate s.mgmt.staging = none →
      exec (.load dt e p) s =
        .next ((ControlsAct.all (s.now + dt) at_ r).enqueue (answered r (envFrame 0x03 e p) .taken (at_ 0x0108 = some 1)))) ∧
    (∀ c j, at_ 0x0100 = some 1 → validate s.mgmt.staging = some (c, j) →
      exec (.load dt e p) s =
        .next ({ r with mgmt := { r.mgmt with checkCode := c, checkSubject := j } }.enqueue
          (answered r (envFrame 0x03 e p) .invalid false)))) ∧
  ∀ (dt : Nat) (e : Env) (p : List Byte) (s : State) (span : Span) (data : List Byte),
    Receiving s → p.length ≤ 48 → Reaches (received dt s) e → Memory.wf s.mgmt.staging = true →
    parseSpan p = some (span, data) → 0x1000 ≤ span.start → span.start + span.count ≤ 0x1E00 →
    s.held = false → coversProtected span s.mgmt.mask = false →
    ∃ m : Memory,
      Answers (.load dt e p) s (envFrame 0x03 e p) .taken
        { received dt s with mgmt := { s.mgmt with staging := m } } ∧
      ∀ a, Memory.read m a =
        if span.start ≤ 0x1000 + a ∧ 0x1000 + a < span.start + span.count
        then (data[0x1000 + a - span.start]?).getD 0
        else Memory.read s.mgmt.staging a

/-! ### The controls -/

/-- COMMIT, RETIRE, CLEAR_COUNTERS, STAGE_FLAG_CLEAR and MGMT_STATUS_CLEAR written to the J824: the verdict and the whole effect. A value
other than 1 at a write-1 control is TAKEN and ignored; COMMIT is BUSY while the Management Unit is held, INVALID with the failing check
when validation fails, and otherwise starts the image write (R47, R49 to R51, R61, R66, R173). Validation passes exactly the
configurations that meet checks 1 to 9 (R62 to R65). -/
def Obligations.ControlsAnswered : Prop :=
  (∀ m : Memory, validate m = none ↔ JunctionValid (some m) ∧ LampsValid (some m) ∧ PlansAndRingValid (some m)) ∧
  ∀ (dt : Nat) (e : Env) (v : Byte) (w : Half) (s : State), Receiving s → Reaches (received dt s) e →
    let r := received dt s
    let commit : Verdict → State → Prop := Answers (.commit dt e v) s (loadFrame e 0x0100 [v])
    (r.held = true → commit .busy r) ∧
    (r.held = false → v ≠ 1 → commit .taken r) ∧
    (∀ c j, r.held = false → v = 1 → validate s.mgmt.staging = some (c, j) →
      commit .invalid { r with mgmt := { s.mgmt with checkCode := c, checkSubject := j } }) ∧
    (r.held = false → v = 1 → validate s.mgmt.staging = none →
      commit .taken { r with
        mgmt := { s.mgmt with checkCode := 0, checkSubject := 255, store := .image (s.now + dt) false }
        nv := { s.nv with imageMarker := false } }) ∧
    (v = 1 → Answers (.retire dt e v) s (loadFrame e 0x0101 [v]) .taken
      { r with alarms := { r.alarms with list := r.alarms.list.filter (fun a => a.active), overflow := false } }) ∧
    (v ≠ 1 → Answers (.retire dt e v) s (loadFrame e 0x0101 [v]) .taken r) ∧
    (v = 1 → Answers (.clearCounters dt e v) s (loadFrame e 0x0102 [v]) .taken
      { r with
        ring := { r.ring with counters :=
          { runt := 0, overlong := 0, lengthBad := 0, crcBad := 0, symbolBad := 0, transitOverrun := 0,
            insertAbandoned := 0, noticeLost := 0, echoMismatch := 0 } }
        classifier := { stripped := 0, tallyExpired := 0, blocked := 0, refusedCall := 0 }
        alarms := { r.alarms with lost := 0 } }) ∧
    (v ≠ 1 → Answers (.clearCounters dt e v) s (loadFrame e 0x0102 [v]) .taken r) ∧
    Answers (.stageFlagClear dt e w) s (loadFrame e 0x0103 [hiByte w, loByte w]) .taken
      { r with alarms := { r.alarms with stageEnd := r.alarms.stageEnd &&& ~~~w } } ∧
    Answers (.mgmtStatusClear dt e v) s (loadFrame e 0x0105 [v]) .taken
      { r with mgmt := { s.mgmt with
        protectedWrite := s.mgmt.protectedWrite && !v.getLsbD 0
        protectClearRefused := s.mgmt.protectClearRefused && !v.getLsbD 1
        checkCode := if v.getLsbD 2 then 0 else s.mgmt.checkCode
        checkSubject := if v.getLsbD 2 then 255 else s.mgmt.checkSubject } }

/-- STATION_RESET and PROTECTION written to the J824. Both are BUSY while the Management Unit is held. STATION_RESET with 1 is TAKEN, the
request pending and the frame marked as its carrier. PROTECTION sets the bits written 1; a bit written 0 clears only under BENCH, and
otherwise sets PROTECT_CLEAR_REFUSED; a change of the mask starts a mask write (R47, R54, R55, R57, R67). -/
def Obligations.ResetAndProtectionAnswered : Prop :=
  ∀ (dt : Nat) (e : Env) (v : Byte) (w : Half) (s : State), Receiving s → Reaches (received dt s) e →
    let r := received dt s
    let protection : Verdict → State → Prop := Answers (.protection dt e w) s (loadFrame e 0x0109 [hiByte w, loByte w])
    let mask : Half := if s.mgmt.bench then w else s.mgmt.mask ||| w
    let refused : Bool := s.mgmt.protectClearRefused || (!s.mgmt.bench && s.mgmt.mask &&& ~~~w != 0)
    (r.held = true → Answers (.stationReset dt e v) s (loadFrame e 0x0108 [v]) .busy r) ∧
    (r.held = false → v ≠ 1 → Answers (.stationReset dt e v) s (loadFrame e 0x0108 [v]) .taken r) ∧
    (r.held = false → v = 1 →
      exec (.stationReset dt e v) s = .next ({ r with mgmt := { s.mgmt with stationReset := .taken false } }.enqueue
        (answered r (loadFrame e 0x0108 [v]) .taken true))) ∧
    (r.held = true → protection .busy r) ∧
    (r.held = false → mask = s.mgmt.mask →
      protection .taken { r with mgmt := { s.mgmt with protectClearRefused := refused } }) ∧
    (r.held = false → mask ≠ s.mgmt.mask →
      protection .taken { r with
        mgmt := { s.mgmt with protectClearRefused := refused, mask := mask, store := .mask (s.now + dt) }
        nv := { s.nv with maskMarker := false } })

/-- CLEAR_PROVING written to the J824: RANGE for 24 to 254; otherwise TAKEN: each circuit named (one, or all by 255) has its lockout
released, its counts 0, overloaded no, and leaves PROVEN, DIM, FAILED and SHORTED for UNPROVEN; the last current and every other circuit
are kept, unless a PENDING activation was carried out at the same instant (R46, R52, R135). -/
def Obligations.ClearProvingActs : Prop :=
  ∀ (dt : Nat) (e : Env) (v : Byte) (s : State), Receiving s → Reaches (received dt s) e →
    let r := received dt s
    let f := loadFrame e 0x0106 [v]
    (24 ≤ v.toNat → v ≠ 255 → Answers (.clearProving dt e v) s f .range r) ∧
    (v.toNat < 24 ∨ v = 255 → ∃ t : State, Answers (.clearProving dt e v) s f .taken t ∧
      (t.mgmt.activation = s.mgmt.activation → ∀ n : CircuitId,
        (v = 255 ∨ v.toNat = n.val →
          t.drive.records[n].lockout = false ∧
          t.circuits[n] = { s.circuits[n] with
            state := match s.circuits[n].state with
              | .notProvable => .notProvable
              | .disabled => .disabled
              | .unproven | .proven | .dim | .failed | .shorted => .unproven
            fail := 0, dim := 0, good := 0, high := 0, overloaded := false }) ∧
        (v ≠ 255 → v.toNat ≠ n.val →
          t.circuits[n] = s.circuits[n] ∧ t.drive.records[n].lockout = s.drive.records[n].lockout)))

/-- CORE_RETEST written to the J824: RANGE for 24 to 254; otherwise TAKEN: each core named goes to UNTESTED with its counts 0 and its probe
and leakage test cancelled, the last readings and instants of probe and test kept; a circuit released from NOT_PROVABLE is UNPROVEN,
unless a PENDING activation was carried out at the same instant (R46, R53, R134, R155). That the probe is cancelled also on a core that
is UNTESTED already, of which R155 says that its counts are cleared and nothing more, is the model's reading (log 42). -/
def Obligations.CoreRetestActs : Prop :=
  ∀ (dt : Nat) (e : Env) (v : Byte) (s : State), Receiving s → Reaches (received dt s) e →
    let r := received dt s
    let f := loadFrame e 0x0107 [v]
    (24 ≤ v.toNat → v ≠ 255 → Answers (.coreRetest dt e v) s f .range r) ∧
    (v.toNat < 24 ∨ v = 255 → ∃ t : State, Answers (.coreRetest dt e v) s f .taken t ∧
      ∀ n : CircuitId, v = 255 ∨ v.toNat = n.val →
        t.cable.cores[n] = { s.cable.cores[n] with
          state := .untested, valid := 0, miss := 0, missTotal := 0, cross := 0, quiet := 0, leak := 0, cleanLeak := 0,
          probe := none, offSince := t.cable.cores[n].offSince } ∧
        t.scanner.testing n = false ∧
        (t.mgmt.activation = s.mgmt.activation →
          s.cable.cores[n].state = .opened ∨ s.cable.cores[n].state = .crossFeed →
          s.circuits[n].state = .notProvable → t.circuits[n].state = .unproven))

/-! ### Store and activation -/

/-- The ends of the store writes. IMAGE_WRITE_END, 240 ms after the start: the image holds the staging configuration with a matching check
and a valid marker; a mask write follows when one waits. The activation is carried out at once in DARK, FLASH and START, and in FAIL_RED, with
mains, when every group is RED or DARK; in RUN during ENTER or MIN, with mains, it awaits the minimum; in EXTEND, REST and ALL_RED the
groups are cleared to red at once, and it is carried out at once when every used group is then RED. Where it is carried out, with mains
(while it is lost the outputs follow as well), the next state is that of the swap (its content: R69, R72). MASK_WRITE_END, 20 ms after
the start: the mask word is stored (R66, R67, R68, R70). -/
def Obligations.StoreWritesEnd : Prop :=
  ∀ (dt since : Nat) (s : State), s.phase = .notInReset →
    (∀ maskNext, s.mgmt.store = .image since maskNext → since + 240000 ≤ s.now + dt → ∃ t : State,
      let written : State := { elapse dt s with
        nv := { s.nv with
          imageMarker := true, imageCheckMatches := true, image := s.mgmt.staging
          maskMarker := s.nv.maskMarker && !maskNext }
        mgmt := { s.mgmt with store := if maskNext then .mask (s.now + dt) else .idle, activation := .pending } }
      exec (.imageWriteEnd dt) s = .next t ∧
      t.nv = { s.nv with
        imageMarker := true, imageCheckMatches := true, image := s.mgmt.staging
        maskMarker := s.nv.maskMarker && !maskNext } ∧
      t.mgmt.store = (if maskNext then .mask (s.now + dt) else .idle) ∧ t.mgmt.staging = s.mgmt.staging ∧
      (s.seq.mode = .dark ∨ s.seq.mode = .flash ∨ s.seq.mode = .start →
        t.mgmt.active = some s.mgmt.staging ∧ t.mgmt.activation = .none) ∧
      (s.seq.mode = .dark ∨ s.seq.mode = .flash ∨ s.seq.mode = .start → s.scanner.mains = .present →
        s.fallback.failRed ≠ .waiting → t = written.swap) ∧
      (s.seq.mode = .run → s.seq.step = .enter ∨ s.seq.step = .min → s.scanner.mains = .present →
        t.mgmt.active = s.mgmt.active ∧ t.mgmt.activation = .pending ∧ t.seq.transfer = .awaiting) ∧
      ((s.seq.mode = .run ∧ (s.seq.step = .extend ∨ s.seq.step = .rest)) ∨ s.seq.mode = .allRed → s.scanner.mains = .present →
        s.fallback.failRed = .none →
        let u := (elapse dt s).clearToRed
        ((∀ g : GroupId, u.groups[g].kind ≠ .unused → u.groups[g].aspect = .red) →
          t.mgmt.active = some s.mgmt.staging ∧ t.mgmt.activation = .none ∧ t.seq.transfer = .none ∧
          t = { written with
            seq := { s.seq with transfer := .clearing, pendingForce := none }, groups := u.groups }.swap) ∧
        (¬ (∀ g : GroupId, u.groups[g].kind ≠ .unused → u.groups[g].aspect = .red) →
          t.mgmt.active = s.mgmt.active ∧ t.mgmt.activation = .pending ∧ t.groups = u.groups ∧
          t.seq = { s.seq with transfer := .clearing, pendingForce := none })) ∧
      (s.seq.mode = .failRed → s.scanner.mains = .present →
        ((∀ g : GroupId, s.groups[g].aspect = .red ∨ s.groups[g].aspect = .dark) →
          t.mgmt.active = some s.mgmt.staging ∧ t.mgmt.activation = .none ∧ t = written.runFailRed.swap) ∧
        (¬ (∀ g : GroupId, s.groups[g].aspect = .red ∨ s.groups[g].aspect = .dark) →
          t.mgmt.active = s.mgmt.active ∧ t.mgmt.activation = .pending ∧ t.groups = s.groups))) ∧
    (s.mgmt.store = .mask since → since + 20000 ≤ s.now + dt →
      exec (.maskWriteEnd dt) s = .next { elapse dt s with
        nv := { s.nv with maskMarker := true, maskWord := s.mgmt.mask }
        mgmt := { s.mgmt with store := .idle } })

/-- The swap: the staging configuration comes into force; demand register, circuits, cores and sequencer fields are set afresh, the other
records kept (R69); and, when no circuit of the new map's GREEN aspects is applied ON, the modes of R72. -/
def Obligations.SwapTakesForce : Prop :=
  ∀ s : State,
    let t := s.swap
    let c : Cfg := some s.mgmt.staging
    let kept : Nat → Nat := fun p => if 1 ≤ cfgPlanLength c p then p else cfgIsolatedPlan c
    t.mgmt = { s.mgmt with active := c, activation := .none } ∧ t.nv = s.nv ∧
    t.demand.register = 0 ∧ t.demand.contacts = s.demand.contacts ∧
    t.seq.hold = false ∧ t.seq.pendingForce = none ∧ t.seq.force = .none ∧ t.seq.pendingPlan = none ∧
    t.seq.switchKept = false ∧ t.seq.transfer = .none ∧ t.seq.pointer = 0 ∧ t.seq.control = s.seq.control ∧
    t.seq.supervision = s.seq.supervision ∧
    t.seq.clock = s.seq.clock ∧ t.seq.supervisedPlan = kept s.seq.supervisedPlan ∧
    t.seq.currentPlan = (if s.seq.control = .isolated then cfgIsolatedPlan c else kept s.seq.currentPlan) ∧
    t.alarms.stageEnd = s.alarms.stageEnd ∧ t.ring.transit = s.ring.transit ∧ t.ring.line = s.ring.line ∧
    (∀ e ∈ t.alarms.list, e.code = .configEmpty → e.subject = 255 → e.active = false) ∧
    (∀ n : CircuitId,
      t.circuits[n] =
        { state := if cfgProvingEnabled c n then .unproven else .disabled, fail := 0, dim := 0, good := 0, high := 0,
          overloaded := false, lastCurrent := s.circuits[n].lastCurrent } ∧
      t.drive.records[n] = { s.drive.records[n] with lockout := false } ∧
      t.cable.cores[n] = s.cable.cores[n].retested) ∧
    t.scanner.leakTest = none ∧ t.cable.leakPointer = s.cable.leakPointer ∧
    (∀ g : GroupId,
      t.groups[g].kind = cfgKind c g ∧ t.groups[g].withheld = false ∧ t.groups[g].gain = none ∧
      t.groups[g].timer = none ∧ t.groups[g].redStatus = .unproven ∧
      (s.groups[g].aspect ≠ .green → t.groups[g].greenEnd = s.groups[g].greenEnd) ∧
      (t.groups[g].kind = .unused → t.groups[g].aspect = .dark)) ∧
    ((∀ (n : CircuitId) (g : GroupId), s.drive.records[n].applied = true → n ∉ cfgLampCircuits c g .green) →
      t.fallback.latch = s.fallback.latch ∧
      (s.seq.mode = .run ∨ s.seq.mode = .allRed ∨ s.seq.mode = .start →
        InStart t ∧ t.seq.startRed = some (s.loadTimer (cfgStartRed c)) ∧
        ∀ g : GroupId, t.groups[g].kind ≠ .unused → t.groups[g].aspect = .red) ∧
      (s.seq.mode = .failRed →
        t.seq.mode = .failRed ∧ t.fallback.failRed = .running (s.loadTimer (cfgFailRed c)) ∧
        ∀ g : GroupId, t.groups[g].kind ≠ .unused → t.groups[g].aspect = .red) ∧
      (s.seq.mode = .flash →
        t.seq.mode = .flash ∧ t.fallback.cause = s.fallback.cause ∧
        ∀ g : GroupId, (t.groups[g].kind = .vehicle → t.groups[g].aspect = .flashAmber) ∧
          (t.groups[g].kind = .pedestrian → t.groups[g].aspect = .dark)) ∧
      (s.seq.mode = .dark → s.fallback.cause.cause = .configEmpty → s.drive.driveEn = true → s.fallback.latch = false →
        InStart t ∧ t.fallback.cause = { cause := .none, subject := 255, time := s.seq.clock }) ∧
      (s.seq.mode = .dark → s.fallback.cause.cause = .configEmpty → s.drive.driveEn = false →
        t.seq.mode = .dark ∧ t.fallback.cause = { cause := .driveOff, subject := 255, time := s.seq.clock }) ∧
      (s.seq.mode = .dark → s.fallback.cause.cause ≠ .configEmpty →
        t.seq.mode = .dark ∧ t.fallback.cause = s.fallback.cause))

/-! ### CALL commands -/

/-- What follows a TAKEN CALL (log 29): under SUPERVISED the supervision timer restarts with the period of the active configuration (R120);
and, as after every change of aspects, mode or targets, with mains PRESENT: nothing else when no change of stage is in ENTER, no fail-red
timer waits and no activation is PENDING; a change of stage in ENTER that is complete begins MIN, and one that is not goes on (R105); a
PENDING activation is carried out by the swap in DARK, FLASH and START, in FAIL_RED when every group is RED or DARK, and at the end of the
last termination of a transfer in CLEARING (R68, R70). -/
def Obligations.TakenCallsRestartSupervision : Prop :=
  ∀ t : State,
    t.restartSupervision = { t with seq := { t.seq with
      supervision := if t.seq.control = .supervised then some (t.stamp + 10 * cfgSupervisionPeriod t.cfg)
        else t.seq.supervision } } ∧
    (t.seq.mode ≠ .run ∨ t.seq.step ≠ .enter → t.fallback.failRed ≠ .waiting → t.mgmt.activation = .none →
      t.scanner.mains = .present → t.settle = t) ∧
    (∀ n, t.seq.mode = .run → t.seq.step = .enter → t.seq.stage = some n → t.seq.transfer ≠ .clearing →
      t.fallback.failRed ≠ .waiting → t.scanner.mains = .present →
      (StageComplete t n → t.settle = t.minStart) ∧ (¬ StageComplete t n → t.settle = t)) ∧
    (t.mgmt.activation = .pending → t.scanner.mains = .present →
      (t.seq.mode = .dark ∨ t.seq.mode = .flash ∨ t.seq.mode = .start → t.fallback.failRed ≠ .waiting →
        t.settle = t.swap) ∧
      (t.seq.mode = .failRed → (∀ g : GroupId, t.groups[g].aspect = .red ∨ t.groups[g].aspect = .dark) →
        t.settle = t.runFailRed.swap) ∧
      (Cleared t → t.fallback.failRed ≠ .waiting → t.settle = t.swap))

/-- CALL PLAN, FORCE and HOLD: BUSY during a transfer, REFUSED under ISOLATED and (FORCE, HOLD) outside RUN, RANGE for a missing or bad
argument; otherwise TAKEN with the effect stated: PLAN sets the pending and the supervised plan and ends a rest by a plan switch, which HOLD
keeps back until it ends (the model's reading, log 44), FORCE is acted on at once in EXTEND and REST and otherwise waits, HOLD becomes yes
(R71, R109, R112 to R114, R116). That PLAN is REFUSED under ISOLATED also while the configuration is EMPTY, for which R113 gives RANGE, is
the model's choice (log 47). -/
def Obligations.PlanForceHold : Prop :=
  ∀ (dt : Nat) (e : Env) (args : List Byte) (s : State),
    let r := received dt s
    (CallReaches (.plan dt e args) s e args →
      let reply : Verdict → State → Prop := Answers (.plan dt e args) s (callFrame e 0x01 args)
      (args = [] → reply .range r) ∧
      ∀ n rest, args = n :: rest →
        let set : State := { r with seq := { s.seq with pendingPlan := some n.toNat, supervisedPlan := n.toNat } }
        (s.seq.transfer ≠ .none → reply .busy r) ∧
        (s.seq.transfer = .none → s.seq.control = .isolated → reply .refused r) ∧
        (s.seq.transfer = .none → s.seq.control = .supervised → 3 < n.toNat ∨ cfgPlanLength s.cfg n.toNat = 0 →
          reply .range r) ∧
        (s.seq.transfer = .none → s.seq.control = .supervised → n.toNat ≤ 3 → 1 ≤ cfgPlanLength s.cfg n.toNat →
          (¬ Resting s → ¬ HeldRest s → reply .taken (taken set)) ∧ (Resting s → reply .taken (taken set.planSwitch)) ∧
          (HeldRest s → reply .taken (taken { set with seq := { set.seq with switchKept := true } })))) ∧
    (CallReaches (.force dt e args) s e args →
      let reply : Verdict → State → Prop := Answers (.force dt e args) s (callFrame e 0x02 args)
      (args = [] → reply .range r) ∧
      ∀ n rest, args = n :: rest →
        let acted : State := { r with seq := { s.seq with pendingForce := none, force := .forced, switchKept := false } }
        (s.seq.transfer ≠ .none → reply .busy r) ∧
        (s.seq.transfer = .none → s.seq.control = .isolated ∨ s.seq.mode ≠ .run → reply .refused r) ∧
        (s.seq.transfer = .none → s.seq.control = .supervised → s.seq.mode = .run → 15 < n.toNat → reply .range r) ∧
        (s.seq.transfer = .none → s.seq.control = .supervised → s.seq.mode = .run → n.toNat ≤ 15 →
          (s.seq.step ≠ .extend → s.seq.step ≠ .rest →
            reply .taken (taken { r with seq := { s.seq with pendingForce := some n.toNat } })) ∧
          (s.seq.step = .extend ∨ s.seq.step = .rest → s.seq.stage = some n.toNat → reply .taken (taken acted.minStart)) ∧
          (s.seq.step = .extend ∨ s.seq.step = .rest → s.seq.stage ≠ some n.toNat →
            reply .taken (taken (acted.changeStage true n.toNat))))) ∧
    (CallReaches (.hold dt e args) s e args →
      let reply : Verdict → State → Prop := Answers (.hold dt e args) s (callFrame e 0x03 args)
      (s.seq.transfer ≠ .none → reply .busy r) ∧
      (s.seq.transfer = .none → s.seq.control = .isolated ∨ s.seq.mode ≠ .run → reply .refused r) ∧
      (s.seq.transfer = .none → s.seq.control = .supervised → s.seq.mode = .run →
        reply .taken (taken { r with seq := { s.seq with hold := true } })))

/-- CALL RELEASE: BUSY during a transfer, otherwise TAKEN in every mode and under both control sources: HOLD and the pending FORCE go,
FORCED becomes RELEASED; a forced rest takes a step end at once, a step end that HOLD kept back is taken, as a plan switch where a pending
plan was set in the rest (the model's reading, log 44) and as the scan otherwise (R107, R109, R115, R117). -/
def Obligations.ReleaseTaken : Prop :=
  ∀ (dt : Nat) (e : Env) (args : List Byte) (s : State), CallReaches (.release dt e args) s e args →
    let r := received dt s
    let reply : Verdict → State → Prop := Answers (.release dt e args) s (callFrame e 0x04 args)
    let freed : State := { r with seq := { s.seq with
      hold := false, pendingForce := none, force := if s.seq.force = .forced then .released else s.seq.force } }
    let forcedRest : Prop := s.seq.force = .forced ∧ s.seq.mode = .run ∧ s.seq.step = .rest
    let overdue : Prop := s.seq.mode = .run ∧ s.seq.step = .extend ∧ ∀ d, s.seq.deadline = some d → d ≤ r.timeBase
    (s.seq.transfer ≠ .none → reply .busy r) ∧
    (s.seq.transfer = .none → forcedRest → reply .taken (taken freed.stepEnd)) ∧
    (s.seq.transfer = .none → ¬ forcedRest → s.seq.hold = false → reply .taken (taken freed)) ∧
    (s.seq.transfer = .none → s.seq.hold = true → overdue → reply .taken (taken freed.stepEnd)) ∧
    (s.seq.transfer = .none → s.seq.hold = true → ¬ forcedRest → s.seq.mode = .run → s.seq.step = .rest →
      (s.seq.switchKept = true ∨ s.seq.isolatedSwitch = true → reply .taken (taken freed.planSwitch)) ∧
      (s.seq.switchKept = false → s.seq.isolatedSwitch = false → reply .taken (taken freed.scanPlan))) ∧
    (s.seq.transfer = .none → s.seq.hold = true → ¬ overdue → ¬ (s.seq.mode = .run ∧ s.seq.step = .rest) →
      reply .taken (taken freed))

/-- CALL RESUME: BUSY during a transfer; from ALL_RED the step of the resume step is entered, leaving no stage; in RUN under ISOLATED with
the line UP the control becomes SUPERVISED with the supervised plan pending; REFUSED in RUN under ISOLATED without the line, in START and
FAIL_RED, and in FLASH or DARK while the latch, a LOST red, an EMPTY configuration or a low DRIVE_EN stands; otherwise the junction enters
START with cause NONE, and the FALLBACK and STALL alarms clear (R119, R167).
The model's own here: the line is read after the frame has been counted, so that a RESUME in the second good frame of SEEKING finds it UP
and is TAKEN (log 21, DEDUCED); in a rest the supervised plan is taken at once (log 18, DEDUCED), and in a rest under HOLD the plan switch
is kept back and noted (log 44, DEDUCED); SUPERVISION_LOST clears before that switch (log 5, DESIGN CHOICE). -/
def Obligations.ResumeAnswered : Prop :=
  ∀ (dt : Nat) (e : Env) (args : List Byte) (s : State), CallReaches (.resume dt e args) s e args → RedStatusComputed s →
    let r := received dt s
    let reply : Verdict → State → Prop := Answers (.resume dt e args) s (callFrame e 0x08 args)
    let barred : Prop := s.fallback.latch = true ∨ (∃ g : GroupId, s.used g = true ∧ s.groups[g].redStatus = .lost) ∨
      s.mgmt.active = none ∨ s.drive.driveEn = false
    (s.seq.transfer ≠ .none → reply .busy r) ∧
    (∀ k, s.seq.transfer = .none → s.seq.mode = .allRed → s.seq.resumeStep = some k →
      reply .taken (taken ({ r with seq := { s.seq with mode := .run, pointer := k, resumeStep := none } }.changeStage false
        (cfgStepStage s.cfg s.seq.currentPlan k)))) ∧
    (s.seq.transfer = .none → s.seq.mode = .run → s.seq.control = .supervised → reply .taken (taken r)) ∧
    (s.seq.transfer = .none → s.seq.mode = .run → s.seq.control = .isolated → r.ring.line.state ≠ .up → reply .refused r) ∧
    (s.seq.transfer = .none → s.seq.mode = .run → s.seq.control = .isolated → r.ring.line.state = .up →
      let restored : State := { r with seq := { s.seq with
        control := .supervised, pendingPlan := some s.seq.supervisedPlan, isolatedSwitch := false }
        }.clear .supervisionLost 255
      (¬ Resting s → ¬ HeldRest s → reply .taken (taken restored)) ∧ (Resting s → reply .taken (taken restored.planSwitch)) ∧
      (HeldRest s → reply .taken (taken { restored with seq := { restored.seq with switchKept := true } }))) ∧
    (s.seq.transfer = .none → s.seq.mode = .start ∨ s.seq.mode = .failRed → reply .refused r) ∧
    (s.seq.transfer = .none → s.seq.mode = .flash ∨ s.seq.mode = .dark → barred → reply .refused r) ∧
    (s.seq.transfer = .none → s.seq.mode = .flash ∨ s.seq.mode = .dark → ¬ barred → ∃ u : State,
      reply .taken (taken u) ∧ InStart u ∧ u.seq.startRed = some (r.loadTimer (cfgStartRed s.cfg)) ∧
      u.fallback.cause = { cause := .none, subject := 255, time := s.seq.clock } ∧ u.fallback.last = s.fallback.last ∧
      u.fallback.failRed = .none ∧ u.seq.control = s.seq.control ∧ Shows .red .red r u ∧
      (∀ a ∈ u.alarms.list, a.code = .stall → a.active = false) ∧
      (s.fallbackCondition = true → ∀ a ∈ u.alarms.list, a.code = .fallback → a.subject = 255 → a.active = false))

/-- CALL ALL_RED, FLASH and DARK. ALL_RED is TAKEN in RUN, with the groups cleared to red, and in ALL_RED, REFUSED elsewhere; FLASH and DARK
are answered during a transfer too, end normal control, write cause COMMANDED unless the latch is set and show their picture; FLASH in
FLASH and DARK in DARK change nothing, FLASH in DARK is REFUSED (R71, R101, R118, R166). -/
def Obligations.AllRedFlashDark : Prop :=
  ∀ (dt : Nat) (e : Env) (args : List Byte) (s : State),
    let r := received dt s
    let commanded : CauseRecord := { cause := .commanded, subject := 255, time := s.seq.clock }
    (CallReaches (.allRed dt e args) s e args →
      let reply : Verdict → State → Prop := Answers (.allRed dt e args) s (callFrame e 0x05 args)
      (s.seq.mode = .run →
        reply .taken (taken ({ r with
          seq := { s.seq with
            mode := .allRed, resumeStep := some s.seq.pointer, step := .none, stage := none, stepStart := none,
            minExpiry := none, deadline := none, pendingForce := none, force := .none, switchKept := false,
            transfer := if s.seq.transfer = TransferState.none then .none else .clearing }
          demand := { s.demand with held := noneHeld } }.clearToRed))) ∧
      (s.seq.mode = .allRed → reply .taken (taken r)) ∧
      (s.seq.mode ≠ .run → s.seq.mode ≠ .allRed → reply .refused r)) ∧
    (CallReaches (.flash dt e args) s e args →
      let reply : Verdict → State → Prop := Answers (.flash dt e args) s (callFrame e 0x06 args)
      (s.seq.mode.normal = true → s.fallback.latch = false → ∃ u : State, reply .taken (taken u) ∧
        OutOfControl .flash u ∧ PlansKept s u ∧ u.fallback.cause = commanded ∧ u.fallback.last = commanded ∧
        u.fallback.failRed = .none ∧ Shows .flashAmber .dark r u) ∧
      (s.seq.mode = .failRed → s.fallback.latch = false → ∃ u : State, reply .taken (taken u) ∧
        u.seq = { s.seq with mode := .flash } ∧ u.fallback.cause = commanded ∧ u.fallback.last = commanded ∧
        u.fallback.failRed = .none ∧ Shows .flashAmber .dark r u) ∧
      (s.seq.mode = .flash → reply .taken (taken r)) ∧
      (s.seq.mode = .dark → reply .refused r)) ∧
    (CallReaches (.dark dt e args) s e args →
      let reply : Verdict → State → Prop := Answers (.dark dt e args) s (callFrame e 0x07 args)
      (s.seq.mode.normal = true → s.fallback.latch = false → ∃ u : State, reply .taken (taken u) ∧
        OutOfControl .dark u ∧ PlansKept s u ∧ u.fallback.cause = commanded ∧ u.fallback.last = commanded ∧
        u.fallback.failRed = .none ∧ Shows .dark .dark r u) ∧
      (s.seq.mode = .failRed ∨ s.seq.mode = .flash → ∃ u : State, reply .taken (taken u) ∧
        u.seq = { s.seq with mode := .dark } ∧ u.fallback.failRed = .none ∧ Shows .dark .dark r u ∧
        (s.fallback.latch = true → u.fallback.cause = s.fallback.cause ∧ u.fallback.last = s.fallback.last) ∧
        (s.fallback.latch = false → u.fallback.cause = commanded ∧ u.fallback.last = commanded)) ∧
      (s.seq.mode = .dark → reply .taken (taken r)))

/-- CALL DEMAND raises the lines of its word, D0 first; CALL TIME sets the clock, whose next second counts from then; both are TAKEN in
every mode, under both control sources and during a transfer, and answered RANGE when their bytes are missing (R41, R71, R122). -/
def Obligations.DemandAndTimeTaken : Prop :=
  ∀ (dt : Nat) (e : Env) (args : List Byte) (s : State),
    let r := received dt s
    (CallReaches (.callDemand dt e args) s e args →
      let reply : Verdict → State → Prop := Answers (.callDemand dt e args) s (callFrame e 0x09 args)
      (args.length < 2 → reply .range r) ∧
      (∀ hi lo rest, args = hi :: lo :: rest →
        reply .taken (taken (lineIds.foldl
          (fun t d => if (halfOf hi lo).getLsbD d.val then t.demandEvent d else t) r)))) ∧
    (CallReaches (.time dt e args) s e args →
      let reply : Verdict → State → Prop := Answers (.time dt e args) s (callFrame e 0x0A args)
      (args.length < 4 → reply .range r) ∧
      (∀ a b c d rest, args = a :: b :: c :: d :: rest →
        reply .taken (taken { r with seq := { s.seq with clock := wordOf a b c d, clockSince := s.now + dt } })))

/-! ### Demand -/

/-- A demand event: none on a line that is not enabled; on an enabled line the stages of its set that are not running join the register, and
a running stage in the set of an extending line moves the deadline of a plan step to now plus the extension unit, at most step start plus
max; when a stage joins while the sequencer rests, the scan of R108 is made as a step end: a plan switch under the isolated switch, else
the scan, at which a pending plan that waits since forced operation goes on waiting (R38, R39, R106, R108, R109, R115). That one scan
follows when all stages of the event have joined is the model's reading (log 19). The running stage is the current stage in RUN while the
step is in MIN or EXTEND; otherwise there is none (R39). -/
def Obligations.DemandEventsAct : Prop :=
  ∀ (s : State) (d : LineId),
    let set := cfgLineStages s.cfg d
    let running := s.runningStage
    let joined : Half := s.demand.register ||| (match running with | none => set | some t => setRemove set t)
    let deadline : Option Nat :=
      match running, s.seq.stepStart with
      | some t, some t0 =>
        if s.seq.force = .none ∧ cfgLineExtends s.cfg d = true ∧ setHas set t = true then
          some (min (s.stamp + cfgStepExtension s.cfg s.seq.currentPlan s.seq.pointer)
            (t0 + cfgStepMax s.cfg s.seq.currentPlan s.seq.pointer))
        else s.seq.deadline
      | _, _ => s.seq.deadline
    let acted : State := { s with
      demand := { s.demand with register := joined }, seq := { s.seq with deadline := deadline } }
    (s.seq.mode = .run → s.seq.step = .min ∨ s.seq.step = .extend → running = s.seq.stage) ∧
    (s.seq.mode ≠ .run ∨ s.seq.step ≠ .min ∧ s.seq.step ≠ .extend → running = none) ∧
    (cfgLineEnabled s.cfg d = false → s.demandEvent d = s) ∧
    (cfgLineEnabled s.cfg d = true → ¬ (Resting s ∧ s.seq.transfer = .none) ∨ joined = s.demand.register →
      s.demandEvent d = acted) ∧
    (cfgLineEnabled s.cfg d = true → Resting s → s.seq.transfer = .none → joined ≠ s.demand.register →
      s.demandEvent d =
        if s.seq.isolatedSwitch = true then acted.planSwitch else acted.scanPlan)

/-- A contact sample every 10 ms takes the eight contacts in order, K0 first, and before it is due nothing: each debounce record moves by
its sample, the third consecutive differing one being accepted; an accepted closure of Kn is one demand event on line D(8+n), an
accepted opening ends the line's held extension (R36, R37, R40). A held extension: the first event at once, then one a second, while the
condition holds; none and no timing while it does not (R40, log 20). The condition: the line is enabled and extends, its contact is
CLOSED, and in RUN the step is in EXTEND with a stage of the line's set (R40). A sample or an extension that comes late leaves the next
where it was (the model's reading, log 37). -/
def Obligations.ContactsAndHeldExtensions : Prop :=
  (∀ (s : State) (k : ContactId),
    let line := contactLine k
    s.heldCondition k = true ↔
      cfgLineEnabled s.cfg line = true ∧ cfgLineExtends s.cfg line = true ∧ s.demand.contacts[k].closed = true ∧
        s.seq.mode = .run ∧ s.seq.step = .extend ∧
        ∃ stage, s.seq.stage = some stage ∧ setHas (cfgLineStages s.cfg line) stage = true) ∧
  (∀ (dt : Nat) (levels : Byte) (s : State), s.phase = .notInReset →
    (s.now + dt < s.demand.nextSample → exec (.contactSample dt levels) s = .next (elapse dt s)) ∧
    (s.demand.nextSample ≤ s.now + dt → ∃ t : State,
      t = (contactIds.foldl (fun (u : State) (k : ContactId) => u.sampleContact k (levels.getLsbD k.val))
        { elapse dt s with demand := { s.demand with nextSample := s.demand.nextSample + 10000 } }).settle ∧
      exec (.contactSample dt levels) s = .next t ∧ t.demand.nextSample = s.demand.nextSample + 10000 ∧
      ∀ k : ContactId,
        let old := s.demand.contacts[k]
        let sampled := levels.getLsbD k.val
        t.demand.contacts[k] =
          if sampled = old.closed then { old with changes := 0 }
          else if old.changes < 2 then { old with changes := old.changes + 1 }
          else { closed := sampled, changes := 0 })) ∧
  (∀ (s : State) (k : ContactId) (closed : Bool),
    let old := s.demand.contacts[k]
    let sampled : State := { s with demand := { s.demand with contacts := s.demand.contacts.set k.val (old.sample closed) } }
    (contactLine k).val = 8 + k.val ∧
    (closed = true → old.closed = false → 2 ≤ old.changes →
      s.sampleContact k closed = sampled.demandEvent (contactLine k)) ∧
    (closed = false → old.closed = true → 2 ≤ old.changes →
      s.sampleContact k closed = { sampled with demand := { sampled.demand with held := s.demand.held.set k.val none } }) ∧
    (old.changes < 2 ∨ closed = old.closed → s.sampleContact k closed = sampled)) ∧
  (∀ (dt : Nat) (k : ContactId) (s : State), s.phase = .notInReset →
    let r := elapse dt s
    let extended : Nat → State := fun next => { r with
      demand := { s.demand with held := s.demand.held.set k.val (some next) }
      seq := { s.seq with deadline :=
        match s.seq.stepStart with
        | some t0 =>
          if s.seq.force = .none then
            some (min (r.stamp + cfgStepExtension s.cfg s.seq.currentPlan s.seq.pointer)
              (t0 + cfgStepMax s.cfg s.seq.currentPlan s.seq.pointer))
          else s.seq.deadline
        | none => s.seq.deadline } }
    (s.heldCondition k = true → s.demand.held[k] = none →
      exec (.heldExtension dt k) s = .next (extended (s.now + dt + 1000000))) ∧
    (∀ t, s.heldCondition k = true → s.demand.held[k] = some t → t ≤ s.now + dt →
      exec (.heldExtension dt k) s = .next (extended (t + 1000000))) ∧
    (∀ t, s.heldCondition k = true → s.demand.held[k] = some t → s.now + dt < t →
      exec (.heldExtension dt k) s = .next r) ∧
    (s.heldCondition k = false →
      exec (.heldExtension dt k) s = .next { r with demand := { s.demand with held := s.demand.held.set k.val none } }))

/-! ### The sequencer's timers -/

/-- The supervision timer expires: ISOLATED, HOLD and pending FORCE gone, FORCED becomes RELEASED, the pending plan none, the isolated
switch yes, SUPERVISION_LOST raised; a rest and a step end that HOLD kept back end at once (R121; that the alarm comes before the stage
that is left is reported is the model's choice, log 5). The start-red timer expires: RUN with the plan of the control source, step 0
chosen, a stage change that leaves no stage (R103). That the expiry sets the isolated switch in START too, where R102 speaks of the
values of R101, is the model's reading (log 41), and so is the plan switch kept back in a rest under HOLD, which the expiry drops (log
44). -/
def Obligations.SupervisionAndStartEnd : Prop :=
  ∀ (dt : Nat) (s : State), s.phase = .notInReset →
    let r := elapse dt s
    let alone : State := { r with seq := { s.seq with
      hold := false, pendingForce := none, force := if s.seq.force = .forced then .released else s.seq.force,
      control := .isolated, supervision := none, pendingPlan := none, isolatedSwitch := true, switchKept := false } }
    let isolated : State := alone.raise .supervisionLost 255
    let overdue : Prop := s.seq.hold = true ∧ s.seq.mode = .run ∧ s.seq.step = .extend ∧
      ∀ d, s.seq.deadline = some d → d ≤ r.timeBase
    let resting : Prop := s.seq.mode = .run ∧ s.seq.step = .rest
    (∀ x, s.seq.control = .supervised → s.seq.supervision = some x → x ≤ r.timeBase →
      (resting ∨ overdue → exec (.supervisionExpiry dt) s = .next isolated.stepEnd.settle) ∧
      (¬ resting → ¬ overdue → exec (.supervisionExpiry dt) s = .next isolated.settle)) ∧
    (∀ x, s.seq.control = .supervised → s.seq.supervision = some x → r.timeBase < x →
      exec (.supervisionExpiry dt) s = .next r) ∧
    (∀ timer, s.seq.mode = .start → s.seq.startRed = some timer → timer.due ≤ r.timeBase →
      let plan := if s.seq.control = .isolated then cfgIsolatedPlan s.cfg else s.seq.supervisedPlan
      exec (.startRedExpiry dt) s = .next (({ r with seq := { s.seq with
        mode := .run, currentPlan := plan, pendingPlan := none, isolatedSwitch := false, pointer := 0, startRed := none
        } }.changeStage false (cfgStepStage s.cfg plan 0)).settle)) ∧
    (∀ timer, s.seq.startRed = some timer → r.timeBase < timer.due → exec (.startRedExpiry dt) s = .next r)

/-- MIN_EXPIRY: an awaited transfer clears; else a pending FORCE is acted on; else a forced stage rests, a released one takes a step end and
a plan step enters EXTEND (R70, R106, R114). EXTENSION_DEADLINE: the step end is taken at the deadline, or at once when there is none,
unless HOLD is yes (R107). That a forced rest keeps the step start, the minimum expiry and the extension deadline is the model's reading
(log 31). That a released stage takes its step end at the minimum expiry whatever HOLD holds, where R106 does not mention HOLD and R116
keeps step ends back in EXTEND and REST, is the model's reading too (log 36). -/
def Obligations.StepTimersEnd : Prop :=
  ∀ (dt : Nat) (s : State), s.phase = .notInReset → s.seq.mode = .run →
    let r := elapse dt s
    (∀ x, s.seq.step = .min → s.seq.minExpiry = some x → x ≤ r.timeBase →
      let after : State → Prop := fun t => exec (.minExpiry dt) s = .next t.settle
      (s.seq.transfer = .awaiting →
        after ({ r with seq := { s.seq with transfer := .clearing, pendingForce := none } }.clearToRed)) ∧
      (∀ f, s.seq.transfer = .none → s.seq.pendingForce = some f →
        let acted : State := { r with seq := { s.seq with pendingForce := none, force := .forced, switchKept := false } }
        (s.seq.stage = some f → after acted.minStart) ∧ (s.seq.stage ≠ some f → after (acted.changeStage true f))) ∧
      (s.seq.transfer = .none → s.seq.pendingForce = none →
        (s.seq.force = .forced →
          after { r with seq := { s.seq with step := .rest, switchKept := false }, demand := { s.demand with held := noneHeld } }) ∧
        (s.seq.force = .released → after r.stepEnd) ∧
        (s.seq.force = .none → after { r with seq := { s.seq with step := .extend } }))) ∧
    (∀ x, s.seq.step = .min → s.seq.minExpiry = some x → r.timeBase < x → exec (.minExpiry dt) s = .next r) ∧
    (s.seq.step = .extend → s.seq.hold = false → (∀ d, s.seq.deadline = some d → d ≤ r.timeBase) →
      exec (.extensionDeadline dt) s = .next r.stepEnd.settle) ∧
    (s.seq.step = .extend → s.seq.hold = true ∨ (∃ d, s.seq.deadline = some d ∧ r.timeBase < d) →
      exec (.extensionDeadline dt) s = .next r)

/-- A step end. None is taken while a transfer is CLEARING. The isolated switch makes a plan switch; otherwise the steps after the pointer
are scanned, then, but for a pending plan, which makes a plan switch at that boundary (force state NONE, log 25), the steps before it
and, with force state RELEASED, the step at it; the first that qualifies is chosen, else the sequencer rests. A chosen step becomes the
pointer with force state NONE; its stage begins MIN at once when it is the current stage, else by a stage change. A plan switch scans
the new plan from step 0, which it chooses when none qualifies (R70, R108 to R110, R115). That the boundary is reached as soon as no
step after the pointer qualifies, also with the pointer at step 0, where the scan of R108 stops before step 0, is the model's reading
(log 17). That a rest keeps the step start, the minimum expiry and the extension deadline is the model's reading (log 31). -/
def Obligations.StepEndsChoose : Prop :=
  ∀ s : State,
    let c := s.cfg
    let steps : Nat → List Nat := fun p => List.range (cfgPlanLength c p)
    let qualifies : Nat → Nat → Bool := fun p k =>
      !cfgStepDemanded c p k || setHas s.demand.register (cfgStepStage c p k)
    let plan := s.seq.currentPlan
    let ahead := (steps plan).filter (fun k => s.seq.pointer < k)
    let behind := (steps plan).filter (fun k => k < s.seq.pointer) ++
      (if s.seq.force = .released then (steps plan).filter (fun k => k = s.seq.pointer) else [])
    let next := if s.seq.isolatedSwitch then cfgIsolatedPlan c else s.seq.pendingPlan.getD plan
    (s.seq.transfer = .clearing → s.stepEnd = s) ∧
    (s.seq.transfer ≠ .clearing → s.seq.isolatedSwitch = true → s.stepEnd = s.planSwitch) ∧
    (s.seq.transfer ≠ .clearing → s.seq.isolatedSwitch = false → s.stepEnd = s.scanPlan) ∧
    (∀ k, ahead.find? (qualifies plan) = some k → s.scanPlan = s.chooseStep k) ∧
    (ahead.find? (qualifies plan) = none → s.seq.pendingPlan ≠ none → s.seq.force = .none → s.scanPlan = s.planSwitch) ∧
    (ahead.find? (qualifies plan) = none → s.seq.pendingPlan = none ∨ s.seq.force ≠ .none →
      (∀ k, behind.find? (qualifies plan) = some k → s.scanPlan = s.chooseStep k) ∧
      (behind.find? (qualifies plan) = none →
        s.scanPlan = { s with
          seq := { s.seq with step := .rest, switchKept := false }, demand := { s.demand with held := noneHeld } })) ∧
    (∀ k,
      let chosen : State := { s with seq := { s.seq with pointer := k, force := .none, switchKept := false } }
      (s.seq.stage = some (cfgStepStage c plan k) → s.chooseStep k = chosen.minStart) ∧
      (s.seq.stage ≠ some (cfgStepStage c plan k) → s.chooseStep k = chosen.changeStage true (cfgStepStage c plan k))) ∧
    s.planSwitch =
      { s with seq := { s.seq with currentPlan := next, pendingPlan := none, isolatedSwitch := false } }.chooseStep
        (((steps next).find? (qualifies next)).getD 0)

/-- A stage change: the stage left is reported (its flag set), the target is the current stage in ENTER, every group outside the target set
that is in right of way or AMBER is terminated, then every one in RED_AMBER, or RED with a gain request, returns to RED, then every group
of the set gains; a change that is complete begins MIN at once: step start now, minimum expiry by step or forced minimum, no deadline,
and its stage leaves the register (R104 to R106, R177). -/
def Obligations.StageChangesBegin : Prop :=
  (∀ (s : State) (leaving : Bool) (t : Nat),
    let c := s.cfg
    let reported : State := match leaving, s.seq.stage with
      | true, some old => s.stageEnd old
      | _, _ => s
    let begun : State := { reported with
      seq := { s.seq with stage := some t, step := .enter, stepStart := none, minExpiry := none, deadline := none }
      demand := { s.demand with held := noneHeld } }
    let lost := groupIds.foldl (fun u g =>
      if cfgInStage c t g = false ∧ (u.groups[g].aspect.rightOfWay = true ∨ u.groups[g].aspect = .amber)
      then u.terminate g else u) begun
    let returned := groupIds.foldl (fun u g =>
      if cfgInStage c t g = false ∧
        (u.groups[g].aspect = .redAmber ∨ (u.groups[g].aspect = .red ∧ u.groups[g].gain.isSome = true))
      then u.returnRed g else u) lost
    let gained := groupIds.foldl (fun u g => if cfgInStage c t g = true then u.gain g else u) returned
    s.changeStage leaving t = gained.completeStage ∧
    (∀ old, leaving = true → s.seq.stage = some old → setHas (s.changeStage leaving t).alarms.stageEnd old = true ∨ 16 ≤ old)) ∧
  (∀ (s : State) (t : Nat), s.seq.mode = .run → s.seq.step = .enter → s.seq.stage = some t →
    let done : Prop := ∀ g : GroupId,
      (cfgInStage s.cfg t g = true → s.groups[g].aspect = .green ∧ s.groups[g].gain = none) ∧
      (cfgInStage s.cfg t g = false → s.groups[g].aspect ≠ .amber ∧ s.groups[g].aspect ≠ .greenFlash)
    (¬ done → s.completeStage = s) ∧ (done → s.completeStage = s.minStart)) ∧
  (∀ (s : State) (t : Nat), s.seq.stage = some t →
    let least := if s.seq.force = .none then cfgStepMin s.cfg s.seq.currentPlan s.seq.pointer else cfgForcedMin s.cfg t
    s.minStart = { s with
      seq := { s.seq with
        step := .min, stepStart := some s.stamp, minExpiry := some (s.stamp + least), deadline := none }
      demand := { s.demand with held := noneHeld, register := setRemove s.demand.register t } })

/-! ### Aspects -/

/-- The requests to one group: TERMINATE (R79), RETURN_RED (R80), GAIN (R82, R86), the whole-junction requests (R81) and the clearing to red
of ALL_RED, FAIL_RED and the transfer; each changes the groups alone. That RETURN_RED leaves the gain request of a group in AMBER or
GREEN_FLASH as it is, where R80 also speaks of every group, is the model's choice (log 45). That TERMINATE lets no waiting group try its
entry again is the model's reading (log 30). -/
def Obligations.AspectRequests : Prop :=
  ∀ (s : State) (g : GroupId),
    let x := s.groups[g]
    let replaced : Group → State := fun y => { s with groups := s.groups.set g.val y }
    let plainRed : Group := { x with aspect := .red, timer := none, gain := none, withheld := false, withheldSince := none }
    (x.kind = .vehicle → x.aspect = .green →
      s.terminate g = replaced { x with
        aspect := .amber, timer := some (s.loadTimer (cfgAmber s.cfg g)), greenEnd := s.stamp, gain := none }) ∧
    (x.kind = .pedestrian → x.aspect = .green →
      s.terminate g = replaced { x with
        aspect := .greenFlash, timer := some (s.loadTimer (cfgClearance s.cfg g)), greenEnd := s.stamp, gain := none }) ∧
    (x.kind ≠ .unused → x.aspect = .redAmber → s.terminate g = replaced plainRed ∧ s.returnRed g = replaced plainRed) ∧
    (x.kind ≠ .unused → x.aspect = .red →
      s.terminate g = replaced { plainRed with timer := x.timer } ∧ s.returnRed g = replaced { plainRed with timer := x.timer }) ∧
    (x.kind ≠ .unused → x.aspect = .amber ∨ x.aspect = .greenFlash ∨ x.aspect = .flashAmber ∨ x.aspect = .dark →
      s.terminate g = replaced { x with gain := none } ∧ s.returnRed g = s) ∧
    (x.aspect = .green → s.gain g = s) ∧
    (x.kind ≠ .unused → x.aspect = .red ∨ x.aspect = .redAmber ∨ x.aspect = .amber ∨ x.aspect = .greenFlash →
      s.gain g = replaced { x with gain := some (s.earliestGreen g) }) ∧
    (x.aspect = .flashAmber ∨ x.aspect = .dark → s.gain g = s) ∧
    (x.kind = .unused → s.terminate g = s ∧ s.returnRed g = s ∧ s.gain g = s) ∧
    ((∀ i, s.conflicts i g = false) → s.earliestGreen g = s.stamp) ∧
    (∀ i, s.conflicts i g = true → s.seen s.groups[i].greenEnd + cfgIntergreen s.cfg i g ≤ s.earliestGreen g) ∧
    (∀ i, s.conflicts i g = true → ∃ j, s.conflicts j g = true ∧
      s.earliestGreen g = s.seen s.groups[j].greenEnd + cfgIntergreen s.cfg j g) ∧
    Shows .red .red s s.showRed ∧ Shows .flashAmber .dark s s.showFlash ∧ Shows .dark .dark s s.showDark ∧
    (s.clearToRed.groups[g] =
      match x.aspect with
      | .green => (s.terminate g).groups[g]
      | .greenFlash => (s.terminate g).groups[g]
      | .amber => (s.terminate g).groups[g]
      | .redAmber => (s.returnRed g).groups[g]
      | .red => if x.withheld = true ∨ x.gain ≠ none then (s.returnRed g).groups[g] else x
      | .flashAmber => x
      | .dark => x) ∧
    s.clearToRed = { s with groups := s.clearToRed.groups }

/-- The entries to RED_AMBER and GREEN and the ends of amber and clearance. RED_AMBER_DUE checks the red interlock and enters RED_AMBER or
withholds; the entry to GREEN needs E reached, no conflicting group in right of way and the interlock, whose failure withholds in RED
(withheld-since kept while already withheld); AMBER and GREEN_FLASH end in RED, a pending GAIN taking its E then; a waiting group tries
again when a conflicting clearance ends (R77, R78, R83 to R88). An entry to GREEN that completes a change of stage in ENTER begins MIN
(R105); the end of the last amber or clearance of a transfer in CLEARING makes the swap (R70). A withheld group is checked again when the
red status or the evidence of a conflicting group changes; when the check passes it is released, its earliest green worked out afresh: a
VEHICLE group enters RED_AMBER at once, a PEDESTRIAN group GREEN when E has come and no conflicting group is in right of way, else it
waits in RED (R88). That EARLIEST_GREEN_DUE serves VEHICLE groups too is log 34, that waiting
groups try again A first log 5, that a group waiting in RED_AMBER holds no aspect timer log 40. -/
def Obligations.AspectTimersAct : Prop :=
  (∀ (s : State) (g : GroupId),
    let x := s.groups[g]
    let locked : Prop := ∀ i : GroupId, s.conflicts i g = true → s.groups[i].redStatus = .proven ∧ s.groups[i].evidence = false
    let clear : Prop := ∀ i : GroupId, s.conflicts i g = true → s.groups[i].aspect.rightOfWay = false
    let released : Group := { x with withheld := false, withheldSince := none, gain := some (s.earliestGreen g) }
    let replaced : Group → State := fun y => { s with groups := s.groups.set g.val y }
    s.recheckAround g = groupIds.foldl (fun u i => if s.conflicts g i = true then u.recheck i else u) s ∧
    (x.withheld = false ∨ ¬ locked ∨ x.kind = .unused → s.recheck g = s) ∧
    (x.withheld = true → locked → x.kind = .vehicle →
      s.recheck g = replaced { released with aspect := .redAmber, timer := some (s.loadTimer (cfgRedAmber s.cfg g)) }) ∧
    (x.withheld = true → locked → x.kind = .pedestrian → s.earliestGreen g ≤ s.timeBase → clear →
      s.recheck g = replaced { released with aspect := .green, timer := none, gain := none }) ∧
    (x.withheld = true → locked → x.kind = .pedestrian → s.timeBase < s.earliestGreen g ∨ ¬ clear →
      s.recheck g = replaced released)) ∧
  ∀ (dt : Nat) (g : GroupId) (s : State), s.phase = .notInReset →
    let r := elapse dt s
    let x := s.groups[g]
    let replaced : Group → State := fun y => { r with groups := s.groups.set g.val y }
    let locked : Prop := ∀ i : GroupId, s.conflicts i g = true → s.groups[i].redStatus = .proven ∧ s.groups[i].evidence = false
    let clear : Prop := ∀ i : GroupId, s.conflicts i g = true → s.groups[i].aspect.rightOfWay = false
    let held : Group := { x with
      aspect := .red, timer := none, withheld := true
      withheldSince := if x.withheld then x.withheldSince else some r.stamp }
    let green : Group := { x with
      aspect := .green, timer := none, gain := none, withheld := false, withheldSince := none }
    let red : Group := { x with
      aspect := .red, timer := none, gain := if x.gain = none then none else some (r.earliestGreen g) }
    let completes : Prop := s.seq.mode = .run ∧ s.seq.step = .enter ∧ (∃ n, s.seq.stage = some n ∧ StageComplete (replaced green) n) ∧
      s.seq.transfer ≠ .clearing ∧ s.fallback.failRed ≠ .waiting ∧ s.scanner.mains = .present
    let clears : Prop := s.mgmt.activation = .pending ∧ Cleared (replaced red) ∧ s.fallback.failRed ≠ .waiting ∧
      s.scanner.mains = .present
    (∀ e, x.kind = .vehicle → x.aspect = .red → x.withheld = false → x.gain = some e →
      e ≤ r.timeBase + cfgRedAmber s.cfg g →
      (locked → exec (.redAmberDue dt g) s = .next (replaced { x with
        aspect := .redAmber, timer := some (r.loadTimer (cfgRedAmber s.cfg g)), withheldSince := none }).settle) ∧
      (¬ locked → exec (.redAmberDue dt g) s = .next (replaced held).settle)) ∧
    (∀ e t, x.aspect = .redAmber → x.timer = some t → t.due ≤ r.timeBase → x.gain = some e →
      (e ≤ r.timeBase → clear → locked → exec (.redAmberExpiry dt g) s = .next (replaced green).settle) ∧
      (e ≤ r.timeBase → clear → locked → completes → exec (.redAmberExpiry dt g) s = .next (replaced green).minStart) ∧
      (e ≤ r.timeBase → clear → ¬ locked → exec (.redAmberExpiry dt g) s = .next (replaced held).settle) ∧
      (r.timeBase < e ∨ ¬ clear →
        exec (.redAmberExpiry dt g) s = .next (replaced { x with timer := none }).settle)) ∧
    (∀ e, (x.kind = .pedestrian ∧ x.aspect = .red) ∨ (x.kind = .vehicle ∧ x.aspect = .redAmber ∧ x.timer = none) →
      x.withheld = false → x.gain = some e → e ≤ r.timeBase →
      (clear → locked → exec (.earliestGreenDue dt g) s = .next (replaced green).settle) ∧
      (clear → locked → completes → exec (.earliestGreenDue dt g) s = .next (replaced green).minStart) ∧
      (clear → ¬ locked → exec (.earliestGreenDue dt g) s = .next (replaced held).settle) ∧
      (¬ clear → exec (.earliestGreenDue dt g) s = .next r.settle)) ∧
    (∀ t, x.aspect = .amber → x.timer = some t → t.due ≤ r.timeBase →
      exec (.amberExpiry dt g) s = .next (replaced red).settle ∧
      (clears → exec (.amberExpiry dt g) s = .next (replaced red).swap)) ∧
    (∀ t, x.aspect = .greenFlash → x.timer = some t → t.due ≤ r.timeBase →
      exec (.clearanceExpiry dt g) s = .next ((groupIds.foldl
        (fun u j => if s.conflicts g j = true ∧ u.groups[j].waitsForGreen = true then u.tryGreen j else u)
        (replaced red)).settle) ∧
      (clears → (∀ j : GroupId, s.groups[j].gain = none) →
        exec (.clearanceExpiry dt g) s = .next (replaced red).swap))

/-! ### Lamp side -/

/-- A half-cycle mark: counted, mains PRESENT from it, every output at its target, changed-at moved where it switched, also where the
change was made at the very instant of a mark that ends a loss of mains and taken first (R126; how it stood before is held: log 43);
each circuit applied ON before the mark whose reading is not blanked records it as its last current, every other keeps its last current
(R92, R94, R123 to R126, R128; capped, log 23). The readings of the set, each by the applied state before the mark, are classified:
CURRENT by the Proving Unit, with the lockout set by a CRITICAL one, VOLTAGE by the Cable Monitor for an enabled core (R123, R128, R129,
R147). The model's choices: the targets are applied and the evidence that follows from them is worked out, with the release of withheld
groups and a conflict, before any reading is classified, an order that R123 leaves open (log 33); CURRENT comes before VOLTAGE (log 5); a
completed stage change, a swap and what else follows at the instant come after the whole set (log 5). A circuit is commanded OFF under a
lockout and when the lamp map names it nowhere, and otherwise by its group's aspect as the table of R91 says (R90, R91); its target is ON
when it is commanded ON, or FLASH while the flash phase is ON, and OFF otherwise and for every circuit while DRIVE_EN is low (R94, R96). -/
def Obligations.HalfCycleMarks : Prop :=
  (∀ (s : State) (n : CircuitId),
    let names : GroupId → LampAspect → Prop := fun g a =>
      s.cfg ≠ none ∧ ∃ i, i < 2 ∧ (cfgByte s.cfg 8 (8 * g.val + 2 * (match a with | .red => 0 | .amber => 1 | .green => 2) + i)).toNat = n.val
    (∀ g a, n ∈ cfgLampCircuits s.cfg g a ↔ names g a) ∧
    (s.drive.records[n].lockout = true → s.commanded n = .off) ∧
    ((∀ g a, ¬ names g a) → s.commanded n = .off) ∧
    (∀ g a, s.drive.records[n].lockout = false → names g a → (∀ h b, names h b → h = g ∧ b = a) →
      ¬ (s.groups[g].aspect = .greenFlash ∧ a = .amber) →
      s.commanded n = match s.groups[g].aspect with
        | .red => if a = .red then .on else .off
        | .redAmber => if a = .green then .off else .on
        | .green => if a = .green then .on else .off
        | .amber => if a = .amber then .on else .off
        | .greenFlash => if a = .green then .flash else .off
        | .flashAmber => if a = .amber then .flash else .off
        | .dark => .off) ∧
    (s.target n = true ↔
      s.drive.driveEn = true ∧ (s.commanded n = .on ∨ s.commanded n = .flash ∧ s.drive.flashOn = true))) ∧
  (∀ (s : State) (n : CircuitId) (v : Nat),
    let r : ProvingRecord := { s.circuits[n] with lastCurrent := v }
    let x := r.classified (classOf s.cfg n v) (cfgAutoRecover s.cfg n)
    (r.state.classifies = true ↔ r.state = .unproven ∨ r.state = .proven ∨ r.state = .dim ∨ r.state = .failed) ∧
    s.currentReading n v =
      (if r.state.classifies then
        ({ s with
          circuits := s.circuits.set n.val x.1
          drive := if classOf s.cfg n v = ReadingClass.critical then
              { s.drive with records := s.drive.records.set n.val { s.drive.records[n] with lockout := true } }
            else s.drive }.alarmEvents (BitVec.ofNat 8 n.val) x.2).refreshRed
      else { s with circuits := s.circuits.set n.val r }) ∧
    s.voltageReading n v =
      (if cfgCoreEnabled s.cfg n then s.moveCore n (s.cable.cores[n].voltage (cfgCrossLimit s.cfg n ≤ v)) else s)) ∧
  ∀ (dt : Nat) (values : Vector Nat 24) (s : State), s.phase = .notInReset → ∃ t : State,
    let before := s.drive.records
    let blankSets := if s.scanner.mains = .lost then 2 else s.scanner.blankSets
    let counted : Word → Word := fun changedAt => s.drive.halfCycles + 1 - changedAt
    let delivered : CircuitId → Bool := fun n =>
      blankSets = 0 ∧ counted before[n].changedAt ≠ 0 ∧ counted before[n].changedAt ≠ 1 ∧ counted before[n].changedAt ≠ 2
    let switched := (elapse dt s).countMark.applyTargets
    let proved := circuitIds.foldl
      (fun u n => if before[n].applied && delivered n then u.currentReading n (min 4095 values[n]) else u) switched
    let checked := circuitIds.foldl
      (fun u n => if !before[n].applied && delivered n then u.voltageReading n (min 400 values[n]) else u) proved
    t = { checked with scanner := { checked.scanner with blankSets := blankSets - 1 } }.settle ∧
    exec (.halfCycleMark dt values) s = .next t ∧
    t.drive.halfCycles = s.drive.halfCycles + 1 ∧ t.scanner.lastMark = s.now + dt ∧ t.scanner.mains = .present ∧
    (∀ n : CircuitId,
      let d := s.drive.records[n]
      t.drive.records[n].applied = s.target n ∧
      (s.scanner.mains = .present ∨ (∀ b, d.before = some b → b.instant ≠ s.now + dt) →
        t.drive.records[n].changedAt = if d.applied = s.target n then d.changedAt else s.drive.halfCycles + 1) ∧
      (∀ b, s.scanner.mains = .lost → d.before = some b → b.instant = s.now + dt →
        t.drive.records[n].changedAt = if b.applied = s.target n then b.changedAt else s.drive.halfCycles + 1)) ∧
    (∀ n : CircuitId,
      let since := s.drive.halfCycles + 1 - s.drive.records[n].changedAt
      let blankedSet : Prop := s.scanner.mains = .lost ∨ 0 < s.scanner.blankSets
      t.circuits[n].lastCurrent =
        if s.drive.records[n].applied = true ∧ ¬ blankedSet ∧ since ≠ 0 ∧ since ≠ 1 ∧ since ≠ 2
        then min 4095 values[n] else s.circuits[n].lastCurrent)

/-- The flash phase turns every 500 ms (R93), an edge that comes late leaving the next where it was (the model's reading, log 37). A fall of
DRIVE_EN puts every output OFF and the junction to DARK by SHOW_DARK, with cause DRIVE_OFF unless CONFIG_EMPTY or a latched CONFLICT is
kept (R96). A rise clears DRIVE_OFF and starts the junction, or leaves it DARK when the configuration is EMPTY or the latch set (R97,
log 26). An edge is acted on when the new level has lasted 1 ms, and a shorter pulse changes the pin's present level alone (R181; how
long the level has lasted is the command's operand, log 38). 50 ms without a mark are a loss of mains: it cancels every probe and test
and applies every waiting change at once; while it lasts a change of target applies at the instant it is made, with the half-cycle count
as it stands (R94, R125, R143, R151), and how the circuit stood before that instant is held (the model's own, log 43). A rise that meets
a LOST red under red-loss action FLASH hands RED_LOSS over for each of them, A first (log 5), and so ends START in FAIL_RED (R139, R163,
R164). -/
def Obligations.DriveAndMainsEvents : Prop :=
  (∀ (s : State) (n : CircuitId), s.scanner.mains = .lost →
    let old := s.drive.records[n]
    let now := s.applyLost.drive.records[n]
    let standing : Standing :=
      { instant := s.now, applied := old.applied, changedAt := old.changedAt, offSince := s.cable.cores[n].offSince }
    (old.applied = s.target n → now = old) ∧
    (old.applied ≠ s.target n → now.applied = s.target n ∧ now.changedAt = s.drive.halfCycles ∧ now.lockout = old.lockout ∧
      (∀ b, old.before = some b → b.instant = s.now → now.before = some b) ∧
      ((∀ b, old.before = some b → b.instant ≠ s.now) → now.before = some standing))) ∧
  ∀ (dt lasted : Nat) (s : State), s.phase = .notInReset →
    let r := elapse dt s
    let since : Bool → Nat := fun level =>
      if s.drive.pin.level = level then s.drive.pin.since else max s.drive.pin.seen (s.now + dt - lasted)
    let pinned : Bool → State := fun level =>
      { r with drive := { s.drive with pin := { level := level, since := since level, seen := s.now + dt } } }
    (s.drive.flashSince + 500000 ≤ s.now + dt →
      exec (.flashPhaseEdge dt) s = .next ({ r with drive := { s.drive with
        flashOn := !s.drive.flashOn, flashSince := s.drive.flashSince + 500000 } }.settle)) ∧
    (s.drive.driveEn = false ∨ s.now + dt < since false + 1000 →
      exec (.driveEnFall ⟨dt, lasted⟩) s = .next (pinned false)) ∧
    (s.drive.driveEn = true ∨ s.now + dt < since true + 1000 →
      exec (.driveEnRise ⟨dt, lasted⟩) s = .next (pinned true)) ∧
    (s.drive.driveEn = true → since false + 1000 ≤ s.now + dt → EvidenceComputed s → ∃ u : State,
      exec (.driveEnFall ⟨dt, lasted⟩) s = .next u.settle ∧ u.drive.pin = (pinned false).drive.pin ∧
      u.drive.driveEn = false ∧ (∀ n : CircuitId, u.drive.records[n].applied = false) ∧
      u.seq.mode = .dark ∧ u.seq.transfer = (if s.seq.mode.normal then .none else s.seq.transfer) ∧
      u.fallback.latch = s.fallback.latch ∧
      (∀ g : GroupId, u.groups[g].kind ≠ .unused → u.groups[g].aspect = .dark ∧ u.groups[g].gain = none) ∧
      (s.fallback.cause.cause = .configEmpty ∨ s.fallback.latch = true → u.fallback.cause = s.fallback.cause) ∧
      (s.fallback.cause.cause ≠ .configEmpty → s.fallback.latch = false →
        u.fallback.cause = { cause := .driveOff, subject := 255, time := s.seq.clock } ∧
        u.fallback.last = u.fallback.cause)) ∧
    (s.drive.driveEn = false → since true + 1000 ≤ s.now + dt → ∃ u : State,
      exec (.driveEnRise ⟨dt, lasted⟩) s = .next u.settle ∧ u.drive.pin = (pinned true).drive.pin ∧ u.drive.driveEn = true ∧
      (∀ e ∈ u.alarms.list, e.code = .driveOff → e.subject = 255 → e.active = false) ∧
      (s.mgmt.active = none → u.seq.mode = .dark ∧ u.fallback.last = s.fallback.last ∧
        u.fallback.cause = { cause := .configEmpty, subject := 255, time := s.seq.clock }) ∧
      (s.mgmt.active ≠ none → s.fallback.latch = true →
        u.seq.mode = .dark ∧ u.fallback.last = s.fallback.last ∧ u.fallback.cause.cause = .conflict) ∧
      (s.mgmt.active ≠ none → s.fallback.latch = false →
        cfgRedLossFlash s.cfg = false ∨ (∀ g : GroupId, s.groups[g].redStatus ≠ .lost) →
        InStart u ∧ u.seq.startRed = some (r.loadTimer (cfgStartRed s.cfg)) ∧
        u.fallback.cause = { cause := .none, subject := 255, time := s.seq.clock } ∧
        u.fallback.last = s.fallback.last ∧ Shows .red .red r u) ∧
      (∀ g : GroupId, s.mgmt.active ≠ none → s.fallback.latch = false → cfgRedLossFlash s.cfg = true →
        s.groups[g].redStatus = .lost → (∀ j : GroupId, g < j → s.groups[j].redStatus ≠ .lost) →
        OutOfControl .failRed u ∧ u.fallback.failRed = .waiting ∧
        u.fallback.cause = { cause := .redLoss, subject := BitVec.ofNat 8 g.val, time := s.seq.clock } ∧
        u.fallback.last = u.fallback.cause ∧ Shows .red .red r u)) ∧
    (s.scanner.mains = .present → s.scanner.lastMark + 50000 ≤ s.now + dt → ∃ u : State,
      exec (.mainsLost dt) s = .next u.settle ∧ u.scanner.mains = .lost ∧ u.scanner.leakTest = none ∧
      (∀ n : CircuitId, u.cable.cores[n].probe = none ∧ u.drive.records[n].applied = s.target n))

/-- A probe is requested when R142's conditions hold; its return 1 ms later is recorded and classified: three valid returns in a row make
UNTESTED, SUSPECT and OPEN cores SOUND, a miss makes UNTESTED, SOUND and LEAKY ones SUSPECT, the fourth miss in SUSPECT makes it OPEN (R142
to R146). That an amplitude above 100 % or a width above 250 µs is taken as the top of its range is the model's reading (log 23), and
that the window maximum is tested for a threshold and a window minimum of 0 too its choice (R144, log 46). A core
that takes a new state clears the alarm of the state it leaves and then raises that of the state it enters (the order: log 5): CORE_OPEN,
CORE_CROSS_FEED, CORE_LEAKY; a leakage test on it ends unless it is SOUND or LEAKY; into OPEN or CROSS_FEED its circuit becomes
NOT_PROVABLE, out of them UNPROVEN; green evidence follows CROSS_FEED, after all these alarms (that order: log 5) (R134, R146, R148, R149,
R151, R152, R154). -/
def Obligations.ProbesClassified : Prop :=
  (∀ (s : State) (n : CircuitId) (k : CoreRecord),
    let old := s.cable.cores[n].state
    let subject : Byte := BitVec.ofNat 8 n.val
    let alarm : CoreState → List AlarmCode := fun c => match c with
      | .opened => [.coreOpen]
      | .crossFeed => [.coreCrossFeed]
      | .leaky => [.coreLeaky]
      | .untested | .sound | .suspect => []
    let breaks : CoreState → Bool := fun c => c = .opened || c = .crossFeed
    let moved : State := { s with cable := { s.cable with cores := s.cable.cores.set n.val k } }
    let tested : State := if k.state = .sound ∨ k.state = .leaky ∨ s.scanner.testing n = false then moved
      else { moved with scanner := { s.scanner with leakTest := none } }
    let alarmed := (alarm k.state).foldl (fun u a => u.raise a subject)
      ((alarm old).foldl (fun u a => u.clear a subject) tested)
    let told := if breaks k.state then alarmed.coreBroken n else if breaks old then alarmed.coreMended n else alarmed
    (old = k.state → s.moveCore n k = moved) ∧
    (old ≠ k.state → s.moveCore n k = if old = .crossFeed ∨ k.state = .crossFeed then told.refreshEvidence else told)) ∧
  (∀ (s : State) (n : CircuitId),
    let subject : Byte := BitVec.ofNat 8 n.val
    let entered : ProvingState → ProvingRecord := fun st => { s.circuits[n] with state := st, fail := 0, dim := 0, good := 0 }
    let kept : Prop := s.circuits[n].state = .disabled ∨ s.circuits[n].state = .notProvable
    (kept → s.coreBroken n = s) ∧
    (¬ kept → s.coreBroken n =
      (((({ s with circuits := s.circuits.set n.val { entered .notProvable with high := 0, overloaded := false } }.clear
        .lampFailed subject).clear .lampDim subject).clear .lampOverload subject).refreshRed)) ∧
    (s.circuits[n].state ≠ .notProvable → s.coreMended n = s) ∧
    (s.circuits[n].state = .notProvable →
      s.coreMended n = { s with circuits := s.circuits.set n.val (entered .unproven) }.refreshRed)) ∧
  (∀ (dt : Nat) (n : CircuitId) (s : State), s.phase = .notInReset →
    let r := elapse dt s
    let k := s.cable.cores[n]
    (cfgCoreEnabled s.cfg n = true → k.state ≠ .crossFeed → s.commanded n = .off → s.drive.records[n].applied = false →
      k.offSince + 10 ≤ r.timeBase → s.scanner.mains = .present → k.probe = none → s.scanner.testing n = false →
      (∀ t, k.lastProbe = some t → t + 20 ≤ r.timeBase) →
      exec (.probeRequest dt n) s = .next { r with cable := { s.cable with
        cores := s.cable.cores.set n.val { k with probe := some (s.now + dt), lastProbe := some r.stamp } } }) ∧
    (∀ amplitude width since, k.probe = some since → since + 1000 ≤ s.now + dt →
      let classified := k.probed
        (cfgThreshold s.cfg n ≤ min 100 amplitude && cfgWidthMin s.cfg n ≤ min 250 width &&
          min 250 width ≤ cfgWidthMax s.cfg n) (min 100 amplitude) (min 250 width)
      exec (.probeReturn dt n amplitude width) s = .next (r.moveCore n classified).settle ∧
      (r.moveCore n classified).cable.cores[n] = classified) ∧
    (∀ amplitude width since, k.probe = some since → s.now + dt < since + 1000 →
      exec (.probeReturn dt n amplitude width) s = .next r) ∧
    (∀ amplitude width, k.probe = none → exec (.probeReturn dt n amplitude width) s = .next r)) ∧
  (∀ (k : CoreRecord) (a w : Nat),
    let seen : CoreRecord := { k with probe := none, lastAmplitude := a, lastWidth := w }
    let missed : CoreRecord := { seen with valid := 0, miss := satInc k.miss, missTotal := satInc k.missTotal }
    (k.state = .untested ∨ k.state = .suspect ∨ k.state = .opened →
      k.probed true a w = if satInc k.valid = 3
        then { seen with state := .sound, valid := 0, miss := 0, missTotal := 0 }
        else { seen with miss := 0, valid := satInc k.valid }) ∧
    (k.state = .sound ∨ k.state = .leaky → k.probed true a w = { seen with miss := 0, valid := satInc k.valid }) ∧
    (k.state = .untested ∨ k.state = .sound ∨ k.state = .leaky →
      k.probed false a w = { missed with state := .suspect, miss := 1, leak := 0, cleanLeak := 0 }) ∧
    (k.state = .suspect →
      k.probed false a w = if satInc k.miss = 4
        then { missed with state := .opened, valid := 0, miss := 0, leak := 0, cleanLeak := 0 } else missed) ∧
    (k.state = .opened → k.probed false a w = missed))

/-- A leakage test starts, when none is in flight, on the first eligible core in cyclic order from the pointer: an enabled SOUND or LEAKY
core, its circuit commanded and applied OFF for 10 ds, with mains, no probe in flight and 300 ds after its last test; its result 100 ms
later is recorded and classified, and the core moves as ProbesClassified says (its alarms with it): two results at or
above the limit make a SOUND core LEAKY, two below it a LEAKY core SOUND. An off-voltage reading: two at or above the limit make a core
CROSS_FEED, fifty below it end CROSS_FEED in UNTESTED (R147 to R152). -/
def Obligations.LeakageAndCrossFeed : Prop :=
  (∀ (dt : Nat) (s : State), s.phase = .notInReset →
    let r := elapse dt s
    let eligible : CircuitId → Prop := fun m =>
      let k := s.cable.cores[m]
      cfgCoreEnabled s.cfg m = true ∧ (k.state = .sound ∨ k.state = .leaky) ∧ s.commanded m = .off ∧
        s.drive.records[m].applied = false ∧ k.offSince + 10 ≤ r.timeBase ∧ s.scanner.mains = .present ∧ k.probe = none ∧
        ∀ t, k.lastLeakTest = some t → t + 300 ≤ r.timeBase
    let fromPointer : CircuitId → Nat := fun m => (m.val + 24 - s.cable.leakPointer.val) % 24
    (s.scanner.leakTest ≠ none ∨ (∀ m, ¬ eligible m) → exec (.leakageTestStart dt) s = .next r) ∧
    (∀ n : CircuitId, s.scanner.leakTest = none → eligible n → (∀ m, eligible m → fromPointer n ≤ fromPointer m) →
      exec (.leakageTestStart dt) s = .next { r with
        cable := { s.cable with
          cores := s.cable.cores.set n.val { s.cable.cores[n] with lastLeakTest := some r.stamp }
          leakPointer := n + 1 }
        scanner := { s.scanner with leakTest := some (n, s.now + dt) } }) ∧
    (∀ (n : CircuitId) (since current : Nat), s.scanner.leakTest = some (n, since) → since + 100000 ≤ s.now + dt →
      let classified := s.cable.cores[n].leaked (cfgLeakLimit s.cfg n ≤ min 1000 current) (min 1000 current)
      let t := { r with scanner := { s.scanner with leakTest := none } }.moveCore n classified
      exec (.leakageResult dt current) s = .next t ∧ t.scanner.leakTest = none ∧ t.cable.cores[n] = classified) ∧
    (∀ current, s.scanner.leakTest = none ∨ (∃ n since, s.scanner.leakTest = some (n, since) ∧ s.now + dt < since + 100000) →
      exec (.leakageResult dt current) s = .next r)) ∧
  (∀ (k : CoreRecord) (current : Nat),
    let seen : CoreRecord := { k with lastLeakage := current }
    (k.state = .sound →
      k.leaked true current = if 2 ≤ k.leak + 1 then { seen with state := .leaky, leak := 0, cleanLeak := 0 }
        else { seen with leak := k.leak + 1, cleanLeak := 0 }) ∧
    (k.state = .leaky →
      k.leaked false current = if 2 ≤ k.cleanLeak + 1
        then { seen with state := .sound, leak := 0, cleanLeak := 0, missTotal := 0 }
        else { seen with cleanLeak := k.cleanLeak + 1, leak := 0 }) ∧
    (k.state = .sound → k.leaked false current = { seen with cleanLeak := min 2 (k.cleanLeak + 1), leak := 0 }) ∧
    (k.state = .leaky → k.leaked true current = { seen with leak := min 2 (k.leak + 1), cleanLeak := 0 }) ∧
    (k.state ≠ .crossFeed →
      k.voltage false = { k with cross := 0 } ∧
      k.voltage true = if 2 ≤ k.cross + 1
        then { k with
          state := .crossFeed, cross := 0, quiet := 0, valid := 0, miss := 0, leak := 0, cleanLeak := 0, probe := none }
        else { k with cross := k.cross + 1 }) ∧
    (k.state = .crossFeed →
      k.voltage true = { k with quiet := 0 } ∧
      k.voltage false = if 50 ≤ k.quiet + 1 then { k with state := .untested, quiet := 0 }
        else { k with quiet := k.quiet + 1 }))

/-- A current reading: its class by the four limits, and what each class does to the proving record, with the alarms raised (true) and
cleared (false) in order, which for several at one reading is the model's choice (R128 to R133, log 5): a CRITICAL one raises LAMP_SHORT,
clears LAMP_OVERLOAD of an overloaded circuit and the alarm of DIM or FAILED. -/
def Obligations.ReadingsProveLamps : Prop :=
  (∀ (c : Cfg) (n : CircuitId) (v : Nat),
    classOf c n v =
      if cfgCriticalLimit c n ≤ v then .critical else if cfgHighLimit c n ≤ v then .high
      else if v < cfgFailLimit c n then .fail else if v < cfgLowLimit c n then .dim else .good) ∧
  (∀ (r : ProvingRecord) (auto : Bool), r.state.classifies = true →
    let entered : ProvingRecord → ProvingState → ProvingRecord := fun x st =>
      { x with state := st, fail := 0, dim := 0, good := 0 }
    let low : ProvingRecord × List AlarmEvent :=
      if r.overloaded = false then ({ r with high := 0 }, [])
      else if satInc r.high = 16 then ({ r with high := 0, overloaded := false }, [(false, .lampOverload)])
      else ({ r with high := satInc r.high }, [])
    let failed : ProvingRecord := { low.1 with fail := satInc r.fail, dim := 0, good := 0 }
    let dimmed : ProvingRecord := { low.1 with dim := satInc r.dim, fail := 0, good := 0 }
    let good : ProvingRecord := { low.1 with good := satInc r.good, fail := 0, dim := 0 }
    r.classified .critical auto =
      ({ entered r .shorted with high := 0, overloaded := false },
        [(true, .lampShort)] ++ (if r.overloaded then [(false, .lampOverload)] else [])
          ++ (if r.state = .dim then [(false, .lampDim)] else [])
          ++ (if r.state = .failed then [(false, .lampFailed)] else [])) ∧
    (r.overloaded = false → satInc r.high = 16 →
      r.classified .high auto =
        ({ r with fail := 0, dim := 0, good := 0, high := 0, overloaded := true }, [(true, .lampOverload)])) ∧
    (r.overloaded = false → satInc r.high ≠ 16 →
      r.classified .high auto = ({ r with fail := 0, dim := 0, good := 0, high := satInc r.high }, [])) ∧
    (r.overloaded = true → r.classified .high auto = ({ r with fail := 0, dim := 0, good := 0, high := 0 }, [])) ∧
    (satInc r.fail = 8 → r.state = .unproven ∨ r.state = .proven →
      r.classified .fail auto = (entered failed .failed, low.2 ++ [(true, .lampFailed)])) ∧
    (satInc r.fail = 8 → r.state = .dim →
      r.classified .fail auto = (entered failed .failed, low.2 ++ [(true, .lampFailed), (false, .lampDim)])) ∧
    (satInc r.fail ≠ 8 ∨ r.state = .failed → r.classified .fail auto = (failed, low.2)) ∧
    (satInc r.dim = 16 → r.state = .unproven ∨ r.state = .proven →
      r.classified .dim auto = (entered dimmed .dim, low.2 ++ [(true, .lampDim)])) ∧
    (satInc r.dim ≠ 16 ∨ r.state = .dim ∨ r.state = .failed → r.classified .dim auto = (dimmed, low.2)) ∧
    (satInc r.good = 4 → r.state = .unproven → r.classified .good auto = (entered good .proven, low.2)) ∧
    (satInc r.good ≠ 4 → r.state = .unproven → r.classified .good auto = (good, low.2)) ∧
    (r.state = .proven → r.classified .good auto = (good, low.2)) ∧
    (satInc r.good = 64 → auto = true → r.state = .dim →
      r.classified .good auto = (entered good .proven, low.2 ++ [(false, .lampDim)])) ∧
    (satInc r.good = 64 → auto = true → r.state = .failed →
      r.classified .good auto = (entered good .proven, low.2 ++ [(false, .lampFailed)])) ∧
    (satInc r.good ≠ 64 ∨ auto = false → r.state = .dim ∨ r.state = .failed → r.classified .good auto = (good, low.2)))

/-! ### Conflict, fallback and alarms -/

/-- A gain of evidence by a group is a conflict when groups that conflict with it show evidence, one conflict with all those pairs, lowest
first; a loss of evidence is none; a swap makes each pair in evidence a conflict of its own, lowest first, but for those already detected
whose evidence lasts (R158, log 16). A detected conflict: the latch is set, the cause and the last-fallback record are CONFLICT with the first pair at the present clock, and
the mode goes by the table of R159: to FLASH or DARK by the conflict action from START, RUN, ALL_RED and FAIL_RED; from FLASH to DARK
with action DARK or a latch already set; DARK stays (R101, R159, R160). A group has evidence exactly when it is used and a circuit of its
GREEN aspect is applied ON or has its core in CROSS_FEED; worked out afresh, every group's evidence is brought to that, the losses before
the gains, A first, which is the model's choice (R157, log 15). -/
def Obligations.ConflictActs : Prop :=
  (∀ s : State,
    (∀ g : GroupId, s.evidenceOf g = true ↔ s.groups[g].kind ≠ .unused ∧ ∃ n ∈ cfgLampCircuits s.cfg g .green,
      s.drive.records[n].applied = true ∨ s.cable.cores[n].state = .crossFeed) ∧
    (let lost := groupIds.foldl
      (fun u g => if u.groups[g].evidence = true ∧ u.evidenceOf g = false then u.setEvidence g false else u) s
     s.refreshEvidence = groupIds.foldl
      (fun u g => if u.groups[g].evidence = false ∧ u.evidenceOf g = true then u.setEvidence g true else u) lost) ∧
    ∀ g : GroupId, s.refreshEvidence.groups[g].evidence = s.evidenceOf g) ∧
  (∀ (s : State) (g : GroupId) (v : Bool),
    let lasting : List GroupId := groupIds.filter (fun i => if i = g then v else s.groups[i].evidence)
    let ended : Byte → Bool := fun p => groupIds.any (fun i => (p.toNat / 8 = i.val ∨ p.toNat % 8 = i.val) ∧ i ∉ lasting)
    let after : State := { s with
      groups := s.groups.set g.val { s.groups[g] with evidence := v }
      fallback := { s.fallback with detected := s.fallback.detected.filter (fun p => !ended p) } }.recheckAround g
    let pairs : List Byte := (lasting.filter (fun i => s.conflicts i g)).map
      (fun i => BitVec.ofNat 8 (8 * min i.val g.val + max i.val g.val))
    (v = false → s.setEvidence g v = after) ∧
    (v = true → pairs = [] → s.setEvidence g v = after) ∧
    (v = true → pairs ≠ [] → s.setEvidence g v = after.conflictDetected pairs)) ∧
  (∀ s : State, ∃ pairs : List Byte,
    s.swapConflicts = pairs.foldl (fun u p => u.conflictDetected [p]) s ∧ pairs.Pairwise (fun p q => p.toNat < q.toNat) ∧
    ∀ p : Byte, p ∈ pairs ↔ p ∉ s.fallback.detected ∧ ∃ i j : GroupId, i < j ∧ p.toNat = 8 * i.val + j.val ∧
      s.conflicts i j = true ∧ s.groups[i].evidence = true ∧ s.groups[j].evidence = true) ∧
  ∀ (s : State) (p : Byte) (rest : List Byte),
    let t := s.conflictDetected (p :: rest)
    let cause : CauseRecord := { cause := .conflict, subject := p, time := s.seq.clock }
    t.fallback.latch = true ∧ t.fallback.cause = cause ∧ t.fallback.last = cause ∧ t.drive = s.drive ∧
    t.mgmt = s.mgmt ∧ t.circuits = s.circuits ∧ t.cable = s.cable ∧
    (s.seq.mode.normal = true → cfgConflictDark s.cfg = false →
      OutOfControl .flash t ∧ PlansKept s t ∧ t.fallback.failRed = .none ∧ Shows .flashAmber .dark s t) ∧
    (s.seq.mode.normal = true → cfgConflictDark s.cfg = true →
      OutOfControl .dark t ∧ PlansKept s t ∧ t.fallback.failRed = .none ∧ Shows .dark .dark s t) ∧
    (s.seq.mode = .failRed → cfgConflictDark s.cfg = false →
      t.seq = { s.seq with mode := .flash } ∧ t.fallback.failRed = .none ∧ Shows .flashAmber .dark s t) ∧
    (s.seq.mode = .failRed → cfgConflictDark s.cfg = true →
      t.seq = { s.seq with mode := .dark } ∧ t.fallback.failRed = .none ∧ Shows .dark .dark s t) ∧
    (s.seq.mode = .flash → cfgConflictDark s.cfg = false → s.fallback.latch = false →
      t.seq = s.seq ∧ t.groups = s.groups) ∧
    (s.seq.mode = .flash → cfgConflictDark s.cfg = true ∨ s.fallback.latch = true →
      t.seq = { s.seq with mode := .dark } ∧ Shows .dark .dark s t) ∧
    (s.seq.mode = .dark → t.seq = s.seq ∧ t.groups = s.groups)

/-- STALL: when the group withheld longest has been withheld for the stall limit, alarm STALL is raised for it and the cause handed over
(R111; that the alarm comes first is the model's choice, log 5); there is such a group exactly when some group is withheld with a gain
request and a withheld-since, and without one, or outside RUN, nothing happens (R111). A controlled cause takes START, RUN and ALL_RED to FAIL_RED with the groups cleared to red and the fail-red timer WAITING; in a
fallback mode it only writes the cause, unless that is CONFLICT, or DRIVE_OFF while DRIVE_EN is low (R101, R163, R164). The fail-red timer
goes from WAITING to RUNNING with its period when every used group is RED, as when the last AMBER ends (R164). FAIL_RED_EXPIRY: FLASH by
SHOW_FLASH, the cause kept (R165). A group's red status is worked out from its RED circuits (R137). One that enters LOST raises RED_LOST
and, under red-loss action FLASH, hands RED_LOSS over with the group as subject (in this order: log 5); one that leaves LOST clears it;
withheld groups around it are checked again at each change (R138). At an entry to START every red still LOST hands RED_LOSS over again
under that action (R139, A first: log 5). -/
def Obligations.StallAndControlledFallback : Prop :=
  (∀ (s : State) (g : GroupId) (v : RedStatus),
    let subject : Byte := BitVec.ofNat 8 g.val
    let was := s.groups[g].redStatus
    let told := { s with groups := s.groups.set g.val { s.groups[g] with redStatus := v } }.recheckAround g
    let raised := told.raise .redLost subject
    (was ≠ .lost → v = .lost →
      s.setRedStatus g v = if cfgRedLossFlash s.cfg then raised.controlled .redLoss subject else raised) ∧
    (was = .lost → v ≠ .lost → s.setRedStatus g v = told.clear .redLost subject) ∧
    ((was = .lost ↔ v = .lost) → s.setRedStatus g v = told)) ∧
  (∀ (s : State) (g : GroupId),
    let reds := cfgLampCircuits s.cfg g .red
    let proven : Prop := ∃ n ∈ reds, s.circuits[n].state = .proven ∨ s.circuits[n].state = .dim
    let gone : Prop := reds ≠ [] ∧ ∀ n ∈ reds, s.circuits[n].state = .failed ∨ s.circuits[n].state = .shorted ∨
      s.circuits[n].state = .notProvable ∨ s.drive.records[n].lockout = true
    (s.groups[g].kind = .unused → s.redStatusOf g = .unproven) ∧
    (s.groups[g].kind ≠ .unused → (s.redStatusOf g = .proven ↔ proven) ∧ (s.redStatusOf g = .lost ↔ ¬ proven ∧ gone))) ∧
  (∀ s : State,
    s.refreshRed = groupIds.foldl
      (fun u g => if u.groups[g].redStatus = u.redStatusOf g then u else u.setRedStatus g (u.redStatusOf g)) s ∧
    (cfgRedLossFlash s.cfg = false → s.redLossAtStart = s) ∧
    (cfgRedLossFlash s.cfg = true → s.redLossAtStart = groupIds.foldl
      (fun u g => if s.groups[g].redStatus = .lost then u.controlled .redLoss (BitVec.ofNat 8 g.val) else u) s) ∧
    ∀ f : Fallback, ∃ u : State, s.enterStart f = u.redLossAtStart ∧ InStart u ∧
      u.seq.startRed = some (s.loadTimer (cfgStartRed s.cfg)) ∧ u.fallback = { f with failRed := .none } ∧ Shows .red .red s u ∧
      ∀ g : GroupId, u.groups[g].redStatus = s.groups[g].redStatus) ∧
  (∀ (dt : Nat) (s : State), s.phase = .notInReset →
    let r := elapse dt s
    (∀ (g : GroupId) (t : Nat), s.seq.mode = .run → r.longestWithheld = some (g, t) →
      (t + cfgStallLimit s.cfg ≤ r.timeBase →
        exec (.stall dt) s =
          .next ((r.raise .stall (BitVec.ofNat 8 g.val)).controlled .stall (BitVec.ofNat 8 g.val)).settle) ∧
      (r.timeBase < t + cfgStallLimit s.cfg → exec (.stall dt) s = .next r)) ∧
    (s.seq.mode ≠ .run ∨ r.longestWithheld = none → exec (.stall dt) s = .next r) ∧
    (∀ timer, s.seq.mode = .failRed → s.fallback.failRed = .running timer → timer.due ≤ r.timeBase → ∃ u : State,
      exec (.failRedExpiry dt) s = .next u.settle ∧ u.seq = { s.seq with mode := .flash } ∧
      u.fallback = { s.fallback with failRed := .none } ∧ Shows .flashAmber .dark r u) ∧
    (∀ (g : GroupId) (t : Timer), s.seq.mode = .failRed → s.fallback.failRed = .waiting → s.mgmt.activation = .none →
      s.scanner.mains = .present → s.groups[g].aspect = .amber → s.groups[g].timer = some t → t.due ≤ r.timeBase →
      let x := s.groups[g]
      let groups := s.groups.set g.val { x with
        aspect := .red, timer := none, gain := if x.gain = none then none else some (r.earliestGreen g) }
      let lastOne : Prop := ∀ j : GroupId, j ≠ g → s.groups[j].kind ≠ .unused → s.groups[j].aspect = .red
      (lastOne → exec (.amberExpiry dt g) s = .next { r with
        groups := groups, fallback := { s.fallback with failRed := .running (r.loadTimer (cfgFailRed s.cfg)) } }) ∧
      (¬ lastOne → exec (.amberExpiry dt g) s = .next { r with groups := groups }))) ∧
  (∀ s : State,
    let allRed : Prop := ∀ g : GroupId, s.groups[g].kind ≠ .unused → s.groups[g].aspect = .red
    (s.fallback.failRed = .waiting → allRed → s.runFailRed = { s with fallback := { s.fallback with
      failRed := .running (s.loadTimer (cfgFailRed s.cfg)) } }) ∧
    (s.fallback.failRed ≠ .waiting ∨ ¬ allRed → s.runFailRed = s)) ∧
  (∀ s : State, s.longestWithheld = none ↔
    ∀ g : GroupId, s.groups[g].withheld = false ∨ s.groups[g].gain = none ∨ s.groups[g].withheldSince = none) ∧
  (∀ (s : State) (g : GroupId) (t : Nat), s.longestWithheld = some (g, t) →
    (s.groups[g].withheld = true ∧ s.groups[g].gain ≠ none ∧ ∃ x, s.groups[g].withheldSince = some x ∧ t = s.seen x) ∧
    ∀ (j : GroupId) (y : Nat), s.groups[j].withheld = true → s.groups[j].gain ≠ none → s.groups[j].withheldSince = some y →
      t < s.seen y ∨ (t = s.seen y ∧ g ≤ j)) ∧
  (∀ (s : State) (cause : Cause) (subject : Byte),
    let t := s.controlled cause subject
    let written : CauseRecord := { cause := cause, subject := subject, time := s.seq.clock }
    let kept : Prop := s.fallback.cause.cause = .conflict ∨ (s.fallback.cause.cause = .driveOff ∧ s.drive.driveEn = false)
    (s.seq.mode.normal = true →
      OutOfControl .failRed t ∧ PlansKept s t ∧ t.fallback.cause = written ∧ t.fallback.last = written ∧
      t.fallback.failRed = .waiting ∧ t.fallback.latch = s.fallback.latch ∧ t.groups = s.clearToRed.groups) ∧
    (s.seq.mode.normal = false → kept → t = s) ∧
    (s.seq.mode.normal = false → ¬ kept →
      t.seq = s.seq ∧ t.groups = s.groups ∧
      t.fallback = { s.fallback with cause := written, last := written }))

/-- A raise: an ACTIVE entry is counted, a CLEARED one becomes ACTIVE and is notified; without an entry a new one is appended, in place of the
oldest CLEARED one when 32 are listed, and lost when all 32 are ACTIVE. A clear: an ACTIVE entry becomes CLEARED and is notified, anything
else is nothing (R168 to R171, R174). -/
def Obligations.AlarmsRaisedAndCleared : Prop :=
  ∀ (clock : Word) (masked : Bool) (code : AlarmCode) (subject : Byte) (a : Alarms),
    let same : AlarmEntry → Prop := fun e => e.code = code ∧ e.subject = subject
    let fresh : AlarmEntry :=
      { code := code, subject := subject, active := true, firstRaised := clock, lastChange := clock, occurrences := 1,
        notified := !masked }
    let raised := raiseOn clock masked code subject a
    let cleared := clearOn clock masked code subject a
    (∀ before e after, a.list = before ++ e :: after → same e → (∀ x ∈ before, ¬ same x) → (∀ x ∈ after, ¬ same x) →
      (e.active = true →
        raised = ({ a with
          list := before ++ { e with occurrences := satInc e.occurrences, lastChange := clock } :: after }, none) ∧
        cleared = ({ a with
          list := before ++ { e with active := false, lastChange := clock, notified := !masked } :: after },
          some { e with active := false, lastChange := clock, notified := !masked })) ∧
      (e.active = false →
        let again : AlarmEntry := { e with
          active := true, occurrences := satInc e.occurrences, lastChange := clock, notified := !masked }
        raised = ({ a with list := before ++ again :: after }, some again) ∧ cleared = (a, none))) ∧
    ((∀ x ∈ a.list, ¬ same x) →
      cleared = (a, none) ∧
      (a.list.length < 32 → raised = ({ a with list := a.list ++ [fresh] }, some fresh)) ∧
      (∀ before e after, 32 ≤ a.list.length → a.list = before ++ e :: after → e.active = false →
        (∀ x ∈ before, x.active = true) → raised = ({ a with list := before ++ after ++ [fresh] }, some fresh)) ∧
      (32 ≤ a.list.length → (∀ x ∈ a.list, x.active = true) →
        raised = ({ a with lost := satInc a.lost, overflow := true }, none)))

/-! ### Invariants -/

/-- The lists stay within their sizes (R15, R18, R168), no alarm is listed twice (R168), and the configurations and the image stay canonical
with blocks 14 and 15 empty (R73, R180). -/
def Obligations.ListsAndMemoriesKept : Prop := Kept ListsBounded ∧ Kept AlarmsDistinct ∧ Kept MemoriesFit

/-- No step brings two conflicting groups into right of way together (R84). -/
def Obligations.NoConflictingGreensKept : Prop := Kept NoConflictingGreens

/-- The modes: a latched conflict keeps the junction in FLASH or DARK (R159), a low DRIVE_EN keeps it DARK with every output OFF (R96), an
EMPTY configuration keeps it DARK (R73); UNUSED groups stay DARK, in DARK every group is DARK, in FLASH every group shows its flash
picture (R78, R81, R91). -/
def Obligations.ModesKept : Prop :=
  Kept (fun s => LatchHolds s ∧ DriveEnHolds s ∧ EmptyHolds s ∧ AspectsFollowMode s)

/-- Outside RUN no step runs, the fail-red timer belongs to FAIL_RED and waits only while some used group is not RED, the transfer belongs
to RUN and ALL_RED, a kept plan switch to a rest under HOLD (R70, R100, R101, R109, R164, R165); the supervision timer runs exactly under
SUPERVISED (R120). -/
def Obligations.SequencerKept : Prop :=
  Kept (fun s => DriveEnHolds s ∧ NoStepOutsideRun s ∧ FailRedTimed s ∧ FailRedWaits s ∧ TransferInRun s ∧ SwitchKeptInRest s) ∧
    Kept SupervisionTimed

/-- Red status and green evidence stay what the proving states, the lockouts, the applied states and the cores give (R137, R157); every
conflicting pair with evidence on both sides has been detected and the latch set (R158, R159); a circuit
whose core is OPEN or CROSS_FEED stays NOT_PROVABLE or DISABLED (R134); probes fly only on circuits applied OFF (R142, R143). -/
def Obligations.LampSideKept : Prop :=
  Kept RedStatusComputed ∧ Kept EvidenceComputed ∧ Kept ConflictsDetected ∧ Kept BrokenNotProvable ∧ Kept ProbesOnlyWhenOff

/-- Every invariant holds right after reset (the store blank and the straps low are the model's choice, log 9). -/
def Obligations.InvariantsHoldAtReset : Prop :=
  ListsBounded State.reset ∧ AlarmsDistinct State.reset ∧ MemoriesFit State.reset ∧ NoConflictingGreens State.reset ∧
    AspectsFollowMode State.reset ∧ RedStatusComputed State.reset ∧ EvidenceComputed State.reset ∧
    LatchHolds State.reset ∧ DriveEnHolds State.reset ∧ EmptyHolds State.reset ∧ NoStepOutsideRun State.reset ∧
    FailRedTimed State.reset ∧ TransferInRun State.reset ∧ SupervisionTimed State.reset ∧ BrokenNotProvable State.reset ∧
    ProbesOnlyWhenOff State.reset ∧ FailRedWaits State.reset ∧ SwitchKeptInRest State.reset ∧ ConflictsDetected State.reset
end

