-- ==== Sys2Proof/Laws/State.lean ====
section
/-! SUPPORT. What each update of State leaves in every field, by rfl: no proof needs to unfold a record update. -/

namespace Sys2Proof.Machine

/-! Time passes. -/

@[simp] theorem elapse_now (dt : Nat) (s : State) : (elapse dt s).now = s.now + dt := rfl
@[simp] theorem elapse_resetEnd (dt : Nat) (s : State) : (elapse dt s).resetEnd = s.resetEnd := rfl
@[simp] theorem elapse_phase (dt : Nat) (s : State) : (elapse dt s).phase = s.phase := rfl
@[simp] theorem elapse_ring (dt : Nat) (s : State) : (elapse dt s).ring = s.ring := rfl
@[simp] theorem elapse_classifier (dt : Nat) (s : State) : (elapse dt s).classifier = s.classifier := rfl
@[simp] theorem elapse_mgmt (dt : Nat) (s : State) : (elapse dt s).mgmt = s.mgmt := rfl
@[simp] theorem elapse_nv (dt : Nat) (s : State) : (elapse dt s).nv = s.nv := rfl
@[simp] theorem elapse_demand (dt : Nat) (s : State) : (elapse dt s).demand = s.demand := rfl
@[simp] theorem elapse_seq (dt : Nat) (s : State) : (elapse dt s).seq = s.seq := rfl
@[simp] theorem elapse_groups (dt : Nat) (s : State) : (elapse dt s).groups = s.groups := rfl
@[simp] theorem elapse_drive (dt : Nat) (s : State) : (elapse dt s).drive = s.drive := rfl
@[simp] theorem elapse_scanner (dt : Nat) (s : State) : (elapse dt s).scanner = s.scanner := rfl
@[simp] theorem elapse_circuits (dt : Nat) (s : State) : (elapse dt s).circuits = s.circuits := rfl
@[simp] theorem elapse_cable (dt : Nat) (s : State) : (elapse dt s).cable = s.cable := rfl
@[simp] theorem elapse_fallback (dt : Nat) (s : State) : (elapse dt s).fallback = s.fallback := rfl
@[simp] theorem elapse_alarms (dt : Nat) (s : State) : (elapse dt s).alarms = s.alarms := rfl
@[simp] theorem elapse_pending (dt : Nat) (s : State) : (elapse dt s).pending = s.pending := rfl

/-! A group record is replaced. -/

@[simp] theorem setGroup_now (s : State) (g : GroupId) (x : Group) : (s.setGroup g x).now = s.now := rfl
@[simp] theorem setGroup_resetEnd (s : State) (g : GroupId) (x : Group) : (s.setGroup g x).resetEnd = s.resetEnd := rfl
@[simp] theorem setGroup_phase (s : State) (g : GroupId) (x : Group) : (s.setGroup g x).phase = s.phase := rfl
@[simp] theorem setGroup_ring (s : State) (g : GroupId) (x : Group) : (s.setGroup g x).ring = s.ring := rfl
@[simp] theorem setGroup_classifier (s : State) (g : GroupId) (x : Group) : (s.setGroup g x).classifier = s.classifier := rfl
@[simp] theorem setGroup_mgmt (s : State) (g : GroupId) (x : Group) : (s.setGroup g x).mgmt = s.mgmt := rfl
@[simp] theorem setGroup_nv (s : State) (g : GroupId) (x : Group) : (s.setGroup g x).nv = s.nv := rfl
@[simp] theorem setGroup_demand (s : State) (g : GroupId) (x : Group) : (s.setGroup g x).demand = s.demand := rfl
@[simp] theorem setGroup_seq (s : State) (g : GroupId) (x : Group) : (s.setGroup g x).seq = s.seq := rfl
@[simp] theorem setGroup_groups (s : State) (g : GroupId) (x : Group) : (s.setGroup g x).groups = s.groups.set g.val x := rfl
@[simp] theorem setGroup_drive (s : State) (g : GroupId) (x : Group) : (s.setGroup g x).drive = s.drive := rfl
@[simp] theorem setGroup_scanner (s : State) (g : GroupId) (x : Group) : (s.setGroup g x).scanner = s.scanner := rfl
@[simp] theorem setGroup_circuits (s : State) (g : GroupId) (x : Group) : (s.setGroup g x).circuits = s.circuits := rfl
@[simp] theorem setGroup_cable (s : State) (g : GroupId) (x : Group) : (s.setGroup g x).cable = s.cable := rfl
@[simp] theorem setGroup_fallback (s : State) (g : GroupId) (x : Group) : (s.setGroup g x).fallback = s.fallback := rfl
@[simp] theorem setGroup_alarms (s : State) (g : GroupId) (x : Group) : (s.setGroup g x).alarms = s.alarms := rfl
@[simp] theorem setGroup_pending (s : State) (g : GroupId) (x : Group) : (s.setGroup g x).pending = s.pending := rfl

/-! A proving record is replaced. -/

@[simp] theorem setCircuit_now (s : State) (n : CircuitId) (r : ProvingRecord) : (s.setCircuit n r).now = s.now := rfl
@[simp] theorem setCircuit_resetEnd (s : State) (n : CircuitId) (r : ProvingRecord) : (s.setCircuit n r).resetEnd = s.resetEnd := rfl
@[simp] theorem setCircuit_phase (s : State) (n : CircuitId) (r : ProvingRecord) : (s.setCircuit n r).phase = s.phase := rfl
@[simp] theorem setCircuit_ring (s : State) (n : CircuitId) (r : ProvingRecord) : (s.setCircuit n r).ring = s.ring := rfl
@[simp] theorem setCircuit_classifier (s : State) (n : CircuitId) (r : ProvingRecord) : (s.setCircuit n r).classifier = s.classifier := rfl
@[simp] theorem setCircuit_mgmt (s : State) (n : CircuitId) (r : ProvingRecord) : (s.setCircuit n r).mgmt = s.mgmt := rfl
@[simp] theorem setCircuit_nv (s : State) (n : CircuitId) (r : ProvingRecord) : (s.setCircuit n r).nv = s.nv := rfl
@[simp] theorem setCircuit_demand (s : State) (n : CircuitId) (r : ProvingRecord) : (s.setCircuit n r).demand = s.demand := rfl
@[simp] theorem setCircuit_seq (s : State) (n : CircuitId) (r : ProvingRecord) : (s.setCircuit n r).seq = s.seq := rfl
@[simp] theorem setCircuit_groups (s : State) (n : CircuitId) (r : ProvingRecord) : (s.setCircuit n r).groups = s.groups := rfl
@[simp] theorem setCircuit_drive (s : State) (n : CircuitId) (r : ProvingRecord) : (s.setCircuit n r).drive = s.drive := rfl
@[simp] theorem setCircuit_scanner (s : State) (n : CircuitId) (r : ProvingRecord) : (s.setCircuit n r).scanner = s.scanner := rfl
@[simp] theorem setCircuit_circuits (s : State) (n : CircuitId) (r : ProvingRecord) : (s.setCircuit n r).circuits = s.circuits.set n.val r := rfl
@[simp] theorem setCircuit_cable (s : State) (n : CircuitId) (r : ProvingRecord) : (s.setCircuit n r).cable = s.cable := rfl
@[simp] theorem setCircuit_fallback (s : State) (n : CircuitId) (r : ProvingRecord) : (s.setCircuit n r).fallback = s.fallback := rfl
@[simp] theorem setCircuit_alarms (s : State) (n : CircuitId) (r : ProvingRecord) : (s.setCircuit n r).alarms = s.alarms := rfl
@[simp] theorem setCircuit_pending (s : State) (n : CircuitId) (r : ProvingRecord) : (s.setCircuit n r).pending = s.pending := rfl

/-! A core record is replaced. -/

@[simp] theorem setCore_now (s : State) (n : CircuitId) (r : CoreRecord) : (s.setCore n r).now = s.now := rfl
@[simp] theorem setCore_resetEnd (s : State) (n : CircuitId) (r : CoreRecord) : (s.setCore n r).resetEnd = s.resetEnd := rfl
@[simp] theorem setCore_phase (s : State) (n : CircuitId) (r : CoreRecord) : (s.setCore n r).phase = s.phase := rfl
@[simp] theorem setCore_ring (s : State) (n : CircuitId) (r : CoreRecord) : (s.setCore n r).ring = s.ring := rfl
@[simp] theorem setCore_classifier (s : State) (n : CircuitId) (r : CoreRecord) : (s.setCore n r).classifier = s.classifier := rfl
@[simp] theorem setCore_mgmt (s : State) (n : CircuitId) (r : CoreRecord) : (s.setCore n r).mgmt = s.mgmt := rfl
@[simp] theorem setCore_nv (s : State) (n : CircuitId) (r : CoreRecord) : (s.setCore n r).nv = s.nv := rfl
@[simp] theorem setCore_demand (s : State) (n : CircuitId) (r : CoreRecord) : (s.setCore n r).demand = s.demand := rfl
@[simp] theorem setCore_seq (s : State) (n : CircuitId) (r : CoreRecord) : (s.setCore n r).seq = s.seq := rfl
@[simp] theorem setCore_groups (s : State) (n : CircuitId) (r : CoreRecord) : (s.setCore n r).groups = s.groups := rfl
@[simp] theorem setCore_drive (s : State) (n : CircuitId) (r : CoreRecord) : (s.setCore n r).drive = s.drive := rfl
@[simp] theorem setCore_scanner (s : State) (n : CircuitId) (r : CoreRecord) : (s.setCore n r).scanner = s.scanner := rfl
@[simp] theorem setCore_circuits (s : State) (n : CircuitId) (r : CoreRecord) : (s.setCore n r).circuits = s.circuits := rfl
@[simp] theorem setCore_cable (s : State) (n : CircuitId) (r : CoreRecord) : (s.setCore n r).cable = { s.cable with cores := s.cable.cores.set n.val r } := rfl
@[simp] theorem setCore_fallback (s : State) (n : CircuitId) (r : CoreRecord) : (s.setCore n r).fallback = s.fallback := rfl
@[simp] theorem setCore_alarms (s : State) (n : CircuitId) (r : CoreRecord) : (s.setCore n r).alarms = s.alarms := rfl
@[simp] theorem setCore_pending (s : State) (n : CircuitId) (r : CoreRecord) : (s.setCore n r).pending = s.pending := rfl

/-! A drive record is replaced. -/

@[simp] theorem setDrive_now (s : State) (n : CircuitId) (r : DriveRecord) : (s.setDrive n r).now = s.now := rfl
@[simp] theorem setDrive_resetEnd (s : State) (n : CircuitId) (r : DriveRecord) : (s.setDrive n r).resetEnd = s.resetEnd := rfl
@[simp] theorem setDrive_phase (s : State) (n : CircuitId) (r : DriveRecord) : (s.setDrive n r).phase = s.phase := rfl
@[simp] theorem setDrive_ring (s : State) (n : CircuitId) (r : DriveRecord) : (s.setDrive n r).ring = s.ring := rfl
@[simp] theorem setDrive_classifier (s : State) (n : CircuitId) (r : DriveRecord) : (s.setDrive n r).classifier = s.classifier := rfl
@[simp] theorem setDrive_mgmt (s : State) (n : CircuitId) (r : DriveRecord) : (s.setDrive n r).mgmt = s.mgmt := rfl
@[simp] theorem setDrive_nv (s : State) (n : CircuitId) (r : DriveRecord) : (s.setDrive n r).nv = s.nv := rfl
@[simp] theorem setDrive_demand (s : State) (n : CircuitId) (r : DriveRecord) : (s.setDrive n r).demand = s.demand := rfl
@[simp] theorem setDrive_seq (s : State) (n : CircuitId) (r : DriveRecord) : (s.setDrive n r).seq = s.seq := rfl
@[simp] theorem setDrive_groups (s : State) (n : CircuitId) (r : DriveRecord) : (s.setDrive n r).groups = s.groups := rfl
@[simp] theorem setDrive_drive (s : State) (n : CircuitId) (r : DriveRecord) : (s.setDrive n r).drive = { s.drive with records := s.drive.records.set n.val r } := rfl
@[simp] theorem setDrive_scanner (s : State) (n : CircuitId) (r : DriveRecord) : (s.setDrive n r).scanner = s.scanner := rfl
@[simp] theorem setDrive_circuits (s : State) (n : CircuitId) (r : DriveRecord) : (s.setDrive n r).circuits = s.circuits := rfl
@[simp] theorem setDrive_cable (s : State) (n : CircuitId) (r : DriveRecord) : (s.setDrive n r).cable = s.cable := rfl
@[simp] theorem setDrive_fallback (s : State) (n : CircuitId) (r : DriveRecord) : (s.setDrive n r).fallback = s.fallback := rfl
@[simp] theorem setDrive_alarms (s : State) (n : CircuitId) (r : DriveRecord) : (s.setDrive n r).alarms = s.alarms := rfl
@[simp] theorem setDrive_pending (s : State) (n : CircuitId) (r : DriveRecord) : (s.setDrive n r).pending = s.pending := rfl

/-! The timing of a held extension is replaced. -/

@[simp] theorem setHeld_now (s : State) (k : ContactId) (x : Option Nat) : (s.setHeld k x).now = s.now := rfl
@[simp] theorem setHeld_resetEnd (s : State) (k : ContactId) (x : Option Nat) : (s.setHeld k x).resetEnd = s.resetEnd := rfl
@[simp] theorem setHeld_phase (s : State) (k : ContactId) (x : Option Nat) : (s.setHeld k x).phase = s.phase := rfl
@[simp] theorem setHeld_ring (s : State) (k : ContactId) (x : Option Nat) : (s.setHeld k x).ring = s.ring := rfl
@[simp] theorem setHeld_classifier (s : State) (k : ContactId) (x : Option Nat) : (s.setHeld k x).classifier = s.classifier := rfl
@[simp] theorem setHeld_mgmt (s : State) (k : ContactId) (x : Option Nat) : (s.setHeld k x).mgmt = s.mgmt := rfl
@[simp] theorem setHeld_nv (s : State) (k : ContactId) (x : Option Nat) : (s.setHeld k x).nv = s.nv := rfl
@[simp] theorem setHeld_demand (s : State) (k : ContactId) (x : Option Nat) : (s.setHeld k x).demand = { s.demand with held := s.demand.held.set k.val x } := rfl
@[simp] theorem setHeld_seq (s : State) (k : ContactId) (x : Option Nat) : (s.setHeld k x).seq = s.seq := rfl
@[simp] theorem setHeld_groups (s : State) (k : ContactId) (x : Option Nat) : (s.setHeld k x).groups = s.groups := rfl
@[simp] theorem setHeld_drive (s : State) (k : ContactId) (x : Option Nat) : (s.setHeld k x).drive = s.drive := rfl
@[simp] theorem setHeld_scanner (s : State) (k : ContactId) (x : Option Nat) : (s.setHeld k x).scanner = s.scanner := rfl
@[simp] theorem setHeld_circuits (s : State) (k : ContactId) (x : Option Nat) : (s.setHeld k x).circuits = s.circuits := rfl
@[simp] theorem setHeld_cable (s : State) (k : ContactId) (x : Option Nat) : (s.setHeld k x).cable = s.cable := rfl
@[simp] theorem setHeld_fallback (s : State) (k : ContactId) (x : Option Nat) : (s.setHeld k x).fallback = s.fallback := rfl
@[simp] theorem setHeld_alarms (s : State) (k : ContactId) (x : Option Nat) : (s.setHeld k x).alarms = s.alarms := rfl
@[simp] theorem setHeld_pending (s : State) (k : ContactId) (x : Option Nat) : (s.setHeld k x).pending = s.pending := rfl

/-! The line record is changed. -/

@[simp] theorem onLine_now (s : State) (f : LineRecord → LineRecord) : (s.onLine f).now = s.now := rfl
@[simp] theorem onLine_resetEnd (s : State) (f : LineRecord → LineRecord) : (s.onLine f).resetEnd = s.resetEnd := rfl
@[simp] theorem onLine_phase (s : State) (f : LineRecord → LineRecord) : (s.onLine f).phase = s.phase := rfl
@[simp] theorem onLine_ring (s : State) (f : LineRecord → LineRecord) : (s.onLine f).ring = { s.ring with line := f s.ring.line } := rfl
@[simp] theorem onLine_classifier (s : State) (f : LineRecord → LineRecord) : (s.onLine f).classifier = s.classifier := rfl
@[simp] theorem onLine_mgmt (s : State) (f : LineRecord → LineRecord) : (s.onLine f).mgmt = s.mgmt := rfl
@[simp] theorem onLine_nv (s : State) (f : LineRecord → LineRecord) : (s.onLine f).nv = s.nv := rfl
@[simp] theorem onLine_demand (s : State) (f : LineRecord → LineRecord) : (s.onLine f).demand = s.demand := rfl
@[simp] theorem onLine_seq (s : State) (f : LineRecord → LineRecord) : (s.onLine f).seq = s.seq := rfl
@[simp] theorem onLine_groups (s : State) (f : LineRecord → LineRecord) : (s.onLine f).groups = s.groups := rfl
@[simp] theorem onLine_drive (s : State) (f : LineRecord → LineRecord) : (s.onLine f).drive = s.drive := rfl
@[simp] theorem onLine_scanner (s : State) (f : LineRecord → LineRecord) : (s.onLine f).scanner = s.scanner := rfl
@[simp] theorem onLine_circuits (s : State) (f : LineRecord → LineRecord) : (s.onLine f).circuits = s.circuits := rfl
@[simp] theorem onLine_cable (s : State) (f : LineRecord → LineRecord) : (s.onLine f).cable = s.cable := rfl
@[simp] theorem onLine_fallback (s : State) (f : LineRecord → LineRecord) : (s.onLine f).fallback = s.fallback := rfl
@[simp] theorem onLine_alarms (s : State) (f : LineRecord → LineRecord) : (s.onLine f).alarms = s.alarms := rfl
@[simp] theorem onLine_pending (s : State) (f : LineRecord → LineRecord) : (s.onLine f).pending = s.pending := rfl

/-! RING IN waits again. -/

@[simp] theorem waiting_now (s : State) : s.waiting.now = s.now := rfl
@[simp] theorem waiting_resetEnd (s : State) : s.waiting.resetEnd = s.resetEnd := rfl
@[simp] theorem waiting_phase (s : State) : s.waiting.phase = s.phase := rfl
@[simp] theorem waiting_ring (s : State) : s.waiting.ring = { s.ring with reception := .waiting } := rfl
@[simp] theorem waiting_classifier (s : State) : s.waiting.classifier = s.classifier := rfl
@[simp] theorem waiting_mgmt (s : State) : s.waiting.mgmt = s.mgmt := rfl
@[simp] theorem waiting_nv (s : State) : s.waiting.nv = s.nv := rfl
@[simp] theorem waiting_demand (s : State) : s.waiting.demand = s.demand := rfl
@[simp] theorem waiting_seq (s : State) : s.waiting.seq = s.seq := rfl
@[simp] theorem waiting_groups (s : State) : s.waiting.groups = s.groups := rfl
@[simp] theorem waiting_drive (s : State) : s.waiting.drive = s.drive := rfl
@[simp] theorem waiting_scanner (s : State) : s.waiting.scanner = s.scanner := rfl
@[simp] theorem waiting_circuits (s : State) : s.waiting.circuits = s.circuits := rfl
@[simp] theorem waiting_cable (s : State) : s.waiting.cable = s.cable := rfl
@[simp] theorem waiting_fallback (s : State) : s.waiting.fallback = s.fallback := rfl
@[simp] theorem waiting_alarms (s : State) : s.waiting.alarms = s.alarms := rfl
@[simp] theorem waiting_pending (s : State) : s.waiting.pending = s.pending := rfl

/-! A frame is queued. -/

@[simp] theorem enqueue_now (s : State) (q : QueuedFrame) : (s.enqueue q).now = s.now := rfl
@[simp] theorem enqueue_resetEnd (s : State) (q : QueuedFrame) : (s.enqueue q).resetEnd = s.resetEnd := rfl
@[simp] theorem enqueue_phase (s : State) (q : QueuedFrame) : (s.enqueue q).phase = s.phase := rfl
@[simp] theorem enqueue_ring (s : State) (q : QueuedFrame) : (s.enqueue q).ring = { s.ring with transit := s.ring.transit ++ [q] } := rfl
@[simp] theorem enqueue_classifier (s : State) (q : QueuedFrame) : (s.enqueue q).classifier = s.classifier := rfl
@[simp] theorem enqueue_mgmt (s : State) (q : QueuedFrame) : (s.enqueue q).mgmt = s.mgmt := rfl
@[simp] theorem enqueue_nv (s : State) (q : QueuedFrame) : (s.enqueue q).nv = s.nv := rfl
@[simp] theorem enqueue_demand (s : State) (q : QueuedFrame) : (s.enqueue q).demand = s.demand := rfl
@[simp] theorem enqueue_seq (s : State) (q : QueuedFrame) : (s.enqueue q).seq = s.seq := rfl
@[simp] theorem enqueue_groups (s : State) (q : QueuedFrame) : (s.enqueue q).groups = s.groups := rfl
@[simp] theorem enqueue_drive (s : State) (q : QueuedFrame) : (s.enqueue q).drive = s.drive := rfl
@[simp] theorem enqueue_scanner (s : State) (q : QueuedFrame) : (s.enqueue q).scanner = s.scanner := rfl
@[simp] theorem enqueue_circuits (s : State) (q : QueuedFrame) : (s.enqueue q).circuits = s.circuits := rfl
@[simp] theorem enqueue_cable (s : State) (q : QueuedFrame) : (s.enqueue q).cable = s.cable := rfl
@[simp] theorem enqueue_fallback (s : State) (q : QueuedFrame) : (s.enqueue q).fallback = s.fallback := rfl
@[simp] theorem enqueue_alarms (s : State) (q : QueuedFrame) : (s.enqueue q).alarms = s.alarms := rfl
@[simp] theorem enqueue_pending (s : State) (q : QueuedFrame) : (s.enqueue q).pending = s.pending := rfl

/-! A notice is handed over. -/

@[simp] theorem notice_now (s : State) (p : List Byte) : (s.notice p).now = s.now := rfl
@[simp] theorem notice_resetEnd (s : State) (p : List Byte) : (s.notice p).resetEnd = s.resetEnd := rfl
@[simp] theorem notice_phase (s : State) (p : List Byte) : (s.notice p).phase = s.phase := rfl
@[simp] theorem notice_ring (s : State) (p : List Byte) : (s.notice p).ring = queueNotice s.now s.ownId (cfgSupervisorId s.cfg) p s.ring := rfl
@[simp] theorem notice_classifier (s : State) (p : List Byte) : (s.notice p).classifier = s.classifier := rfl
@[simp] theorem notice_mgmt (s : State) (p : List Byte) : (s.notice p).mgmt = s.mgmt := rfl
@[simp] theorem notice_nv (s : State) (p : List Byte) : (s.notice p).nv = s.nv := rfl
@[simp] theorem notice_demand (s : State) (p : List Byte) : (s.notice p).demand = s.demand := rfl
@[simp] theorem notice_seq (s : State) (p : List Byte) : (s.notice p).seq = s.seq := rfl
@[simp] theorem notice_groups (s : State) (p : List Byte) : (s.notice p).groups = s.groups := rfl
@[simp] theorem notice_drive (s : State) (p : List Byte) : (s.notice p).drive = s.drive := rfl
@[simp] theorem notice_scanner (s : State) (p : List Byte) : (s.notice p).scanner = s.scanner := rfl
@[simp] theorem notice_circuits (s : State) (p : List Byte) : (s.notice p).circuits = s.circuits := rfl
@[simp] theorem notice_cable (s : State) (p : List Byte) : (s.notice p).cable = s.cable := rfl
@[simp] theorem notice_fallback (s : State) (p : List Byte) : (s.notice p).fallback = s.fallback := rfl
@[simp] theorem notice_alarms (s : State) (p : List Byte) : (s.notice p).alarms = s.alarms := rfl
@[simp] theorem notice_pending (s : State) (p : List Byte) : (s.notice p).pending = s.pending := rfl

/-! An alarm is raised: the alarm list and the insertion queue. -/

@[simp] theorem raise_now (s : State) (c : AlarmCode) (n : Byte) : (s.raise c n).now = s.now := rfl
@[simp] theorem raise_resetEnd (s : State) (c : AlarmCode) (n : Byte) : (s.raise c n).resetEnd = s.resetEnd := rfl
@[simp] theorem raise_phase (s : State) (c : AlarmCode) (n : Byte) : (s.raise c n).phase = s.phase := rfl
@[simp] theorem raise_classifier (s : State) (c : AlarmCode) (n : Byte) : (s.raise c n).classifier = s.classifier := rfl
@[simp] theorem raise_mgmt (s : State) (c : AlarmCode) (n : Byte) : (s.raise c n).mgmt = s.mgmt := rfl
@[simp] theorem raise_nv (s : State) (c : AlarmCode) (n : Byte) : (s.raise c n).nv = s.nv := rfl
@[simp] theorem raise_demand (s : State) (c : AlarmCode) (n : Byte) : (s.raise c n).demand = s.demand := rfl
@[simp] theorem raise_seq (s : State) (c : AlarmCode) (n : Byte) : (s.raise c n).seq = s.seq := rfl
@[simp] theorem raise_groups (s : State) (c : AlarmCode) (n : Byte) : (s.raise c n).groups = s.groups := rfl
@[simp] theorem raise_drive (s : State) (c : AlarmCode) (n : Byte) : (s.raise c n).drive = s.drive := rfl
@[simp] theorem raise_scanner (s : State) (c : AlarmCode) (n : Byte) : (s.raise c n).scanner = s.scanner := rfl
@[simp] theorem raise_circuits (s : State) (c : AlarmCode) (n : Byte) : (s.raise c n).circuits = s.circuits := rfl
@[simp] theorem raise_cable (s : State) (c : AlarmCode) (n : Byte) : (s.raise c n).cable = s.cable := rfl
@[simp] theorem raise_fallback (s : State) (c : AlarmCode) (n : Byte) : (s.raise c n).fallback = s.fallback := rfl
@[simp] theorem raise_alarms (s : State) (c : AlarmCode) (n : Byte) : (s.raise c n).alarms = (raiseOn s.seq.clock (cfgNoticeMasked s.cfg c) c n s.alarms).1 := rfl
@[simp] theorem raise_pending (s : State) (c : AlarmCode) (n : Byte) : (s.raise c n).pending = s.pending := rfl

/-! An alarm is cleared. -/

@[simp] theorem clear_now (s : State) (c : AlarmCode) (n : Byte) : (s.clear c n).now = s.now := rfl
@[simp] theorem clear_resetEnd (s : State) (c : AlarmCode) (n : Byte) : (s.clear c n).resetEnd = s.resetEnd := rfl
@[simp] theorem clear_phase (s : State) (c : AlarmCode) (n : Byte) : (s.clear c n).phase = s.phase := rfl
@[simp] theorem clear_classifier (s : State) (c : AlarmCode) (n : Byte) : (s.clear c n).classifier = s.classifier := rfl
@[simp] theorem clear_mgmt (s : State) (c : AlarmCode) (n : Byte) : (s.clear c n).mgmt = s.mgmt := rfl
@[simp] theorem clear_nv (s : State) (c : AlarmCode) (n : Byte) : (s.clear c n).nv = s.nv := rfl
@[simp] theorem clear_demand (s : State) (c : AlarmCode) (n : Byte) : (s.clear c n).demand = s.demand := rfl
@[simp] theorem clear_seq (s : State) (c : AlarmCode) (n : Byte) : (s.clear c n).seq = s.seq := rfl
@[simp] theorem clear_groups (s : State) (c : AlarmCode) (n : Byte) : (s.clear c n).groups = s.groups := rfl
@[simp] theorem clear_drive (s : State) (c : AlarmCode) (n : Byte) : (s.clear c n).drive = s.drive := rfl
@[simp] theorem clear_scanner (s : State) (c : AlarmCode) (n : Byte) : (s.clear c n).scanner = s.scanner := rfl
@[simp] theorem clear_circuits (s : State) (c : AlarmCode) (n : Byte) : (s.clear c n).circuits = s.circuits := rfl
@[simp] theorem clear_cable (s : State) (c : AlarmCode) (n : Byte) : (s.clear c n).cable = s.cable := rfl
@[simp] theorem clear_fallback (s : State) (c : AlarmCode) (n : Byte) : (s.clear c n).fallback = s.fallback := rfl
@[simp] theorem clear_alarms (s : State) (c : AlarmCode) (n : Byte) : (s.clear c n).alarms = (clearOn s.seq.clock (cfgNoticeMasked s.cfg c) c n s.alarms).1 := rfl
@[simp] theorem clear_pending (s : State) (c : AlarmCode) (n : Byte) : (s.clear c n).pending = s.pending := rfl

/-! A stage that is left is reported. -/

@[simp] theorem stageEnd_now (s : State) (t : Nat) : (s.stageEnd t).now = s.now := rfl
@[simp] theorem stageEnd_resetEnd (s : State) (t : Nat) : (s.stageEnd t).resetEnd = s.resetEnd := rfl
@[simp] theorem stageEnd_phase (s : State) (t : Nat) : (s.stageEnd t).phase = s.phase := rfl
@[simp] theorem stageEnd_classifier (s : State) (t : Nat) : (s.stageEnd t).classifier = s.classifier := rfl
@[simp] theorem stageEnd_mgmt (s : State) (t : Nat) : (s.stageEnd t).mgmt = s.mgmt := rfl
@[simp] theorem stageEnd_nv (s : State) (t : Nat) : (s.stageEnd t).nv = s.nv := rfl
@[simp] theorem stageEnd_demand (s : State) (t : Nat) : (s.stageEnd t).demand = s.demand := rfl
@[simp] theorem stageEnd_seq (s : State) (t : Nat) : (s.stageEnd t).seq = s.seq := rfl
@[simp] theorem stageEnd_groups (s : State) (t : Nat) : (s.stageEnd t).groups = s.groups := rfl
@[simp] theorem stageEnd_drive (s : State) (t : Nat) : (s.stageEnd t).drive = s.drive := rfl
@[simp] theorem stageEnd_scanner (s : State) (t : Nat) : (s.stageEnd t).scanner = s.scanner := rfl
@[simp] theorem stageEnd_circuits (s : State) (t : Nat) : (s.stageEnd t).circuits = s.circuits := rfl
@[simp] theorem stageEnd_cable (s : State) (t : Nat) : (s.stageEnd t).cable = s.cable := rfl
@[simp] theorem stageEnd_fallback (s : State) (t : Nat) : (s.stageEnd t).fallback = s.fallback := rfl
@[simp] theorem stageEnd_alarms (s : State) (t : Nat) : (s.stageEnd t).alarms = { s.alarms with stageEnd := setAdd s.alarms.stageEnd t } := rfl
@[simp] theorem stageEnd_pending (s : State) (t : Nat) : (s.stageEnd t).pending = s.pending := rfl

/-! DRIVE_EN's pin is seen. -/

@[simp] theorem pinAt_now (s : State) (l : Bool) (n : Nat) : (s.pinAt l n).now = s.now := rfl
@[simp] theorem pinAt_resetEnd (s : State) (l : Bool) (n : Nat) : (s.pinAt l n).resetEnd = s.resetEnd := rfl
@[simp] theorem pinAt_phase (s : State) (l : Bool) (n : Nat) : (s.pinAt l n).phase = s.phase := rfl
@[simp] theorem pinAt_ring (s : State) (l : Bool) (n : Nat) : (s.pinAt l n).ring = s.ring := rfl
@[simp] theorem pinAt_classifier (s : State) (l : Bool) (n : Nat) : (s.pinAt l n).classifier = s.classifier := rfl
@[simp] theorem pinAt_mgmt (s : State) (l : Bool) (n : Nat) : (s.pinAt l n).mgmt = s.mgmt := rfl
@[simp] theorem pinAt_nv (s : State) (l : Bool) (n : Nat) : (s.pinAt l n).nv = s.nv := rfl
@[simp] theorem pinAt_demand (s : State) (l : Bool) (n : Nat) : (s.pinAt l n).demand = s.demand := rfl
@[simp] theorem pinAt_seq (s : State) (l : Bool) (n : Nat) : (s.pinAt l n).seq = s.seq := rfl
@[simp] theorem pinAt_groups (s : State) (l : Bool) (n : Nat) : (s.pinAt l n).groups = s.groups := rfl
@[simp] theorem pinAt_drive (s : State) (l : Bool) (n : Nat) : (s.pinAt l n).drive = { s.drive with pin := s.drive.pin.seenAt s.now l n } := rfl
@[simp] theorem pinAt_scanner (s : State) (l : Bool) (n : Nat) : (s.pinAt l n).scanner = s.scanner := rfl
@[simp] theorem pinAt_circuits (s : State) (l : Bool) (n : Nat) : (s.pinAt l n).circuits = s.circuits := rfl
@[simp] theorem pinAt_cable (s : State) (l : Bool) (n : Nat) : (s.pinAt l n).cable = s.cable := rfl
@[simp] theorem pinAt_fallback (s : State) (l : Bool) (n : Nat) : (s.pinAt l n).fallback = s.fallback := rfl
@[simp] theorem pinAt_alarms (s : State) (l : Bool) (n : Nat) : (s.pinAt l n).alarms = s.alarms := rfl
@[simp] theorem pinAt_pending (s : State) (l : Bool) (n : Nat) : (s.pinAt l n).pending = s.pending := rfl

/-! Detected pairs that no longer last are dropped: the fallback records alone. -/

@[simp] theorem dropEndedPairs_now (s : State) : s.dropEndedPairs.now = s.now := rfl
@[simp] theorem dropEndedPairs_resetEnd (s : State) : s.dropEndedPairs.resetEnd = s.resetEnd := rfl
@[simp] theorem dropEndedPairs_phase (s : State) : s.dropEndedPairs.phase = s.phase := rfl
@[simp] theorem dropEndedPairs_ring (s : State) : s.dropEndedPairs.ring = s.ring := rfl
@[simp] theorem dropEndedPairs_classifier (s : State) : s.dropEndedPairs.classifier = s.classifier := rfl
@[simp] theorem dropEndedPairs_mgmt (s : State) : s.dropEndedPairs.mgmt = s.mgmt := rfl
@[simp] theorem dropEndedPairs_nv (s : State) : s.dropEndedPairs.nv = s.nv := rfl
@[simp] theorem dropEndedPairs_demand (s : State) : s.dropEndedPairs.demand = s.demand := rfl
@[simp] theorem dropEndedPairs_seq (s : State) : s.dropEndedPairs.seq = s.seq := rfl
@[simp] theorem dropEndedPairs_groups (s : State) : s.dropEndedPairs.groups = s.groups := rfl
@[simp] theorem dropEndedPairs_drive (s : State) : s.dropEndedPairs.drive = s.drive := rfl
@[simp] theorem dropEndedPairs_scanner (s : State) : s.dropEndedPairs.scanner = s.scanner := rfl
@[simp] theorem dropEndedPairs_circuits (s : State) : s.dropEndedPairs.circuits = s.circuits := rfl
@[simp] theorem dropEndedPairs_cable (s : State) : s.dropEndedPairs.cable = s.cable := rfl
@[simp] theorem dropEndedPairs_fallback (s : State) : s.dropEndedPairs.fallback = { s.fallback with detected := s.lastingPairs } := rfl
@[simp] theorem dropEndedPairs_alarms (s : State) : s.dropEndedPairs.alarms = s.alarms := rfl
@[simp] theorem dropEndedPairs_pending (s : State) : s.dropEndedPairs.pending = s.pending := rfl

/-! TERMINATE changes the groups alone. -/

@[simp] theorem terminate_now (s : State) (g : GroupId) : (s.terminate g).now = s.now := rfl
@[simp] theorem terminate_resetEnd (s : State) (g : GroupId) : (s.terminate g).resetEnd = s.resetEnd := rfl
@[simp] theorem terminate_phase (s : State) (g : GroupId) : (s.terminate g).phase = s.phase := rfl
@[simp] theorem terminate_ring (s : State) (g : GroupId) : (s.terminate g).ring = s.ring := rfl
@[simp] theorem terminate_classifier (s : State) (g : GroupId) : (s.terminate g).classifier = s.classifier := rfl
@[simp] theorem terminate_mgmt (s : State) (g : GroupId) : (s.terminate g).mgmt = s.mgmt := rfl
@[simp] theorem terminate_nv (s : State) (g : GroupId) : (s.terminate g).nv = s.nv := rfl
@[simp] theorem terminate_demand (s : State) (g : GroupId) : (s.terminate g).demand = s.demand := rfl
@[simp] theorem terminate_seq (s : State) (g : GroupId) : (s.terminate g).seq = s.seq := rfl
@[simp] theorem terminate_drive (s : State) (g : GroupId) : (s.terminate g).drive = s.drive := rfl
@[simp] theorem terminate_scanner (s : State) (g : GroupId) : (s.terminate g).scanner = s.scanner := rfl
@[simp] theorem terminate_circuits (s : State) (g : GroupId) : (s.terminate g).circuits = s.circuits := rfl
@[simp] theorem terminate_cable (s : State) (g : GroupId) : (s.terminate g).cable = s.cable := rfl
@[simp] theorem terminate_fallback (s : State) (g : GroupId) : (s.terminate g).fallback = s.fallback := rfl
@[simp] theorem terminate_alarms (s : State) (g : GroupId) : (s.terminate g).alarms = s.alarms := rfl
@[simp] theorem terminate_pending (s : State) (g : GroupId) : (s.terminate g).pending = s.pending := rfl

/-! RETURN_RED changes the groups alone. -/

@[simp] theorem returnRed_now (s : State) (g : GroupId) : (s.returnRed g).now = s.now := rfl
@[simp] theorem returnRed_resetEnd (s : State) (g : GroupId) : (s.returnRed g).resetEnd = s.resetEnd := rfl
@[simp] theorem returnRed_phase (s : State) (g : GroupId) : (s.returnRed g).phase = s.phase := rfl
@[simp] theorem returnRed_ring (s : State) (g : GroupId) : (s.returnRed g).ring = s.ring := rfl
@[simp] theorem returnRed_classifier (s : State) (g : GroupId) : (s.returnRed g).classifier = s.classifier := rfl
@[simp] theorem returnRed_mgmt (s : State) (g : GroupId) : (s.returnRed g).mgmt = s.mgmt := rfl
@[simp] theorem returnRed_nv (s : State) (g : GroupId) : (s.returnRed g).nv = s.nv := rfl
@[simp] theorem returnRed_demand (s : State) (g : GroupId) : (s.returnRed g).demand = s.demand := rfl
@[simp] theorem returnRed_seq (s : State) (g : GroupId) : (s.returnRed g).seq = s.seq := rfl
@[simp] theorem returnRed_drive (s : State) (g : GroupId) : (s.returnRed g).drive = s.drive := rfl
@[simp] theorem returnRed_scanner (s : State) (g : GroupId) : (s.returnRed g).scanner = s.scanner := rfl
@[simp] theorem returnRed_circuits (s : State) (g : GroupId) : (s.returnRed g).circuits = s.circuits := rfl
@[simp] theorem returnRed_cable (s : State) (g : GroupId) : (s.returnRed g).cable = s.cable := rfl
@[simp] theorem returnRed_fallback (s : State) (g : GroupId) : (s.returnRed g).fallback = s.fallback := rfl
@[simp] theorem returnRed_alarms (s : State) (g : GroupId) : (s.returnRed g).alarms = s.alarms := rfl
@[simp] theorem returnRed_pending (s : State) (g : GroupId) : (s.returnRed g).pending = s.pending := rfl

/-! A whole-junction request changes the groups alone. -/

@[simp] theorem showAll_now (s : State) (v p : Aspect) : (s.showAll v p).now = s.now := rfl
@[simp] theorem showAll_resetEnd (s : State) (v p : Aspect) : (s.showAll v p).resetEnd = s.resetEnd := rfl
@[simp] theorem showAll_phase (s : State) (v p : Aspect) : (s.showAll v p).phase = s.phase := rfl
@[simp] theorem showAll_ring (s : State) (v p : Aspect) : (s.showAll v p).ring = s.ring := rfl
@[simp] theorem showAll_classifier (s : State) (v p : Aspect) : (s.showAll v p).classifier = s.classifier := rfl
@[simp] theorem showAll_mgmt (s : State) (v p : Aspect) : (s.showAll v p).mgmt = s.mgmt := rfl
@[simp] theorem showAll_nv (s : State) (v p : Aspect) : (s.showAll v p).nv = s.nv := rfl
@[simp] theorem showAll_demand (s : State) (v p : Aspect) : (s.showAll v p).demand = s.demand := rfl
@[simp] theorem showAll_seq (s : State) (v p : Aspect) : (s.showAll v p).seq = s.seq := rfl
@[simp] theorem showAll_drive (s : State) (v p : Aspect) : (s.showAll v p).drive = s.drive := rfl
@[simp] theorem showAll_scanner (s : State) (v p : Aspect) : (s.showAll v p).scanner = s.scanner := rfl
@[simp] theorem showAll_circuits (s : State) (v p : Aspect) : (s.showAll v p).circuits = s.circuits := rfl
@[simp] theorem showAll_cable (s : State) (v p : Aspect) : (s.showAll v p).cable = s.cable := rfl
@[simp] theorem showAll_fallback (s : State) (v p : Aspect) : (s.showAll v p).fallback = s.fallback := rfl
@[simp] theorem showAll_alarms (s : State) (v p : Aspect) : (s.showAll v p).alarms = s.alarms := rfl
@[simp] theorem showAll_pending (s : State) (v p : Aspect) : (s.showAll v p).pending = s.pending := rfl

/-! Withholding changes the groups alone. -/

@[simp] theorem withhold_now (s : State) (g : GroupId) : (s.withhold g).now = s.now := rfl
@[simp] theorem withhold_resetEnd (s : State) (g : GroupId) : (s.withhold g).resetEnd = s.resetEnd := rfl
@[simp] theorem withhold_phase (s : State) (g : GroupId) : (s.withhold g).phase = s.phase := rfl
@[simp] theorem withhold_ring (s : State) (g : GroupId) : (s.withhold g).ring = s.ring := rfl
@[simp] theorem withhold_classifier (s : State) (g : GroupId) : (s.withhold g).classifier = s.classifier := rfl
@[simp] theorem withhold_mgmt (s : State) (g : GroupId) : (s.withhold g).mgmt = s.mgmt := rfl
@[simp] theorem withhold_nv (s : State) (g : GroupId) : (s.withhold g).nv = s.nv := rfl
@[simp] theorem withhold_demand (s : State) (g : GroupId) : (s.withhold g).demand = s.demand := rfl
@[simp] theorem withhold_seq (s : State) (g : GroupId) : (s.withhold g).seq = s.seq := rfl
@[simp] theorem withhold_drive (s : State) (g : GroupId) : (s.withhold g).drive = s.drive := rfl
@[simp] theorem withhold_scanner (s : State) (g : GroupId) : (s.withhold g).scanner = s.scanner := rfl
@[simp] theorem withhold_circuits (s : State) (g : GroupId) : (s.withhold g).circuits = s.circuits := rfl
@[simp] theorem withhold_cable (s : State) (g : GroupId) : (s.withhold g).cable = s.cable := rfl
@[simp] theorem withhold_fallback (s : State) (g : GroupId) : (s.withhold g).fallback = s.fallback := rfl
@[simp] theorem withhold_alarms (s : State) (g : GroupId) : (s.withhold g).alarms = s.alarms := rfl
@[simp] theorem withhold_pending (s : State) (g : GroupId) : (s.withhold g).pending = s.pending := rfl

/-! The sequencer's fields take their values of R101: the sequencer and the held extensions alone. -/

@[simp] theorem endNormal_now (s : State) : (s.endNormal).now = s.now := rfl
@[simp] theorem endNormal_resetEnd (s : State) : (s.endNormal).resetEnd = s.resetEnd := rfl
@[simp] theorem endNormal_phase (s : State) : (s.endNormal).phase = s.phase := rfl
@[simp] theorem endNormal_ring (s : State) : (s.endNormal).ring = s.ring := rfl
@[simp] theorem endNormal_classifier (s : State) : (s.endNormal).classifier = s.classifier := rfl
@[simp] theorem endNormal_mgmt (s : State) : (s.endNormal).mgmt = s.mgmt := rfl
@[simp] theorem endNormal_nv (s : State) : (s.endNormal).nv = s.nv := rfl
@[simp] theorem endNormal_groups (s : State) : (s.endNormal).groups = s.groups := rfl
@[simp] theorem endNormal_drive (s : State) : (s.endNormal).drive = s.drive := rfl
@[simp] theorem endNormal_scanner (s : State) : (s.endNormal).scanner = s.scanner := rfl
@[simp] theorem endNormal_circuits (s : State) : (s.endNormal).circuits = s.circuits := rfl
@[simp] theorem endNormal_cable (s : State) : (s.endNormal).cable = s.cable := rfl
@[simp] theorem endNormal_fallback (s : State) : (s.endNormal).fallback = s.fallback := rfl
@[simp] theorem endNormal_alarms (s : State) : (s.endNormal).alarms = s.alarms := rfl
@[simp] theorem endNormal_pending (s : State) : (s.endNormal).pending = s.pending := rfl
@[simp] theorem endNormal_seq (s : State) : s.endNormal.seq = { s.seq.endNormal with transfer := .none } := rfl
@[simp] theorem endNormal_demand (s : State) : s.endNormal.demand = s.demand.noHeld := rfl

/-! How a circuit stood before this instant is kept: the drive records alone. -/

@[simp] theorem remember_now (s : State) (u : State) : (s.remember u).now = s.now := by simp only [State.remember]
@[simp] theorem remember_resetEnd (s : State) (u : State) : (s.remember u).resetEnd = s.resetEnd := by simp only [State.remember]
@[simp] theorem remember_phase (s : State) (u : State) : (s.remember u).phase = s.phase := by simp only [State.remember]
@[simp] theorem remember_ring (s : State) (u : State) : (s.remember u).ring = s.ring := by simp only [State.remember]
@[simp] theorem remember_classifier (s : State) (u : State) : (s.remember u).classifier = s.classifier := by simp only [State.remember]
@[simp] theorem remember_mgmt (s : State) (u : State) : (s.remember u).mgmt = s.mgmt := by simp only [State.remember]
@[simp] theorem remember_nv (s : State) (u : State) : (s.remember u).nv = s.nv := by simp only [State.remember]
@[simp] theorem remember_demand (s : State) (u : State) : (s.remember u).demand = s.demand := by simp only [State.remember]
@[simp] theorem remember_seq (s : State) (u : State) : (s.remember u).seq = s.seq := by simp only [State.remember]
@[simp] theorem remember_groups (s : State) (u : State) : (s.remember u).groups = s.groups := by simp only [State.remember]
@[simp] theorem remember_scanner (s : State) (u : State) : (s.remember u).scanner = s.scanner := by simp only [State.remember]
@[simp] theorem remember_circuits (s : State) (u : State) : (s.remember u).circuits = s.circuits := by simp only [State.remember]
@[simp] theorem remember_cable (s : State) (u : State) : (s.remember u).cable = s.cable := by simp only [State.remember]
@[simp] theorem remember_fallback (s : State) (u : State) : (s.remember u).fallback = s.fallback := by simp only [State.remember]
@[simp] theorem remember_alarms (s : State) (u : State) : (s.remember u).alarms = s.alarms := by simp only [State.remember]
@[simp] theorem remember_pending (s : State) (u : State) : (s.remember u).pending = s.pending := by simp only [State.remember]
@[simp] theorem remember_applied (s u : State) (n : CircuitId) :
    (s.remember u).drive.records[n].applied = s.drive.records[n].applied := by
  simp only [State.remember, Fin.getElem_fin, Vector.getElem_ofFn]
  split <;> rfl
@[simp] theorem remember_changedAt (s u : State) (n : CircuitId) :
    (s.remember u).drive.records[n].changedAt = s.drive.records[n].changedAt := by
  simp only [State.remember, Fin.getElem_fin, Vector.getElem_ofFn]
  split <;> rfl
@[simp] theorem remember_lockout (s u : State) (n : CircuitId) :
    (s.remember u).drive.records[n].lockout = s.drive.records[n].lockout := by
  simp only [State.remember, Fin.getElem_fin, Vector.getElem_ofFn]
  split <;> rfl

/-! How circuits stood before is dropped: the drive records alone. -/

@[simp] theorem forget_now (s : State) : (s.forget).now = s.now := by simp only [State.forget]
@[simp] theorem forget_resetEnd (s : State) : (s.forget).resetEnd = s.resetEnd := by simp only [State.forget]
@[simp] theorem forget_phase (s : State) : (s.forget).phase = s.phase := by simp only [State.forget]
@[simp] theorem forget_ring (s : State) : (s.forget).ring = s.ring := by simp only [State.forget]
@[simp] theorem forget_classifier (s : State) : (s.forget).classifier = s.classifier := by simp only [State.forget]
@[simp] theorem forget_mgmt (s : State) : (s.forget).mgmt = s.mgmt := by simp only [State.forget]
@[simp] theorem forget_nv (s : State) : (s.forget).nv = s.nv := by simp only [State.forget]
@[simp] theorem forget_demand (s : State) : (s.forget).demand = s.demand := by simp only [State.forget]
@[simp] theorem forget_seq (s : State) : (s.forget).seq = s.seq := by simp only [State.forget]
@[simp] theorem forget_groups (s : State) : (s.forget).groups = s.groups := by simp only [State.forget]
@[simp] theorem forget_scanner (s : State) : (s.forget).scanner = s.scanner := by simp only [State.forget]
@[simp] theorem forget_circuits (s : State) : (s.forget).circuits = s.circuits := by simp only [State.forget]
@[simp] theorem forget_cable (s : State) : (s.forget).cable = s.cable := by simp only [State.forget]
@[simp] theorem forget_fallback (s : State) : (s.forget).fallback = s.fallback := by simp only [State.forget]
@[simp] theorem forget_alarms (s : State) : (s.forget).alarms = s.alarms := by simp only [State.forget]
@[simp] theorem forget_pending (s : State) : (s.forget).pending = s.pending := by simp only [State.forget]
@[simp] theorem forget_record (s : State) (n : CircuitId) :
    s.forget.drive.records[n] = { s.drive.records[n] with before := none } := by simp [State.forget]

/-! Switches of this instant are taken back: the drive and core records alone. -/

@[simp] theorem takeBack_now (s : State) : (s.takeBack).now = s.now := by simp only [State.takeBack]
@[simp] theorem takeBack_resetEnd (s : State) : (s.takeBack).resetEnd = s.resetEnd := by simp only [State.takeBack]
@[simp] theorem takeBack_phase (s : State) : (s.takeBack).phase = s.phase := by simp only [State.takeBack]
@[simp] theorem takeBack_ring (s : State) : (s.takeBack).ring = s.ring := by simp only [State.takeBack]
@[simp] theorem takeBack_classifier (s : State) : (s.takeBack).classifier = s.classifier := by simp only [State.takeBack]
@[simp] theorem takeBack_mgmt (s : State) : (s.takeBack).mgmt = s.mgmt := by simp only [State.takeBack]
@[simp] theorem takeBack_nv (s : State) : (s.takeBack).nv = s.nv := by simp only [State.takeBack]
@[simp] theorem takeBack_demand (s : State) : (s.takeBack).demand = s.demand := by simp only [State.takeBack]
@[simp] theorem takeBack_seq (s : State) : (s.takeBack).seq = s.seq := by simp only [State.takeBack]
@[simp] theorem takeBack_groups (s : State) : (s.takeBack).groups = s.groups := by simp only [State.takeBack]
@[simp] theorem takeBack_scanner (s : State) : (s.takeBack).scanner = s.scanner := by simp only [State.takeBack]
@[simp] theorem takeBack_circuits (s : State) : (s.takeBack).circuits = s.circuits := by simp only [State.takeBack]
@[simp] theorem takeBack_fallback (s : State) : (s.takeBack).fallback = s.fallback := by simp only [State.takeBack]
@[simp] theorem takeBack_alarms (s : State) : (s.takeBack).alarms = s.alarms := by simp only [State.takeBack]
@[simp] theorem takeBack_pending (s : State) : (s.takeBack).pending = s.pending := by simp only [State.takeBack]
@[simp] theorem takeBack_record (s : State) (n : CircuitId) :
    s.takeBack.drive.records[n] = s.drive.records[n].takenBack s.now := by simp [State.takeBack]
@[simp] theorem takeBack_core (s : State) (n : CircuitId) :
    s.takeBack.cable.cores[n] = s.cable.cores[n].takenBack s.drive.records[n] s.now := by simp [State.takeBack]
@[simp] theorem takenBack_lockout (r : DriveRecord) (now : Nat) : (r.takenBack now).lockout = r.lockout := by
  unfold DriveRecord.takenBack
  split
  · split <;> rfl
  · rfl
@[simp] theorem takenBack_before (r : DriveRecord) (now : Nat) : (r.takenBack now).before = none := by
  unfold DriveRecord.takenBack
  split
  · split <;> rfl
  · assumption

end Sys2Proof.Machine
end

