-- ==== Sys2Proof/Laws/Touch.lean ====
section
/-! SUPPORT. What the shared operations touch. `Control s t`: t differs from s only where the sequencer's own fields, the groups, the
fallback records, the alarm list and the insertion queue may change; `Lamp` adds the lamp side; `Settled` adds the swap. -/

namespace Sys2Proof.Machine

/-- A predicate that one step of a fold keeps holds at its end. -/
theorem foldl_keeps {σ α : Type} (P : σ → Prop) (f : σ → α → σ) (h : ∀ s a, P s → P (f s a)) :
    ∀ (l : List α) (s : σ), P s → P (l.foldl f s)
  | [], _, hs => hs
  | a :: l, s, hs => foldl_keeps P f h l (f s a) (h s a hs)

/-! ### The insertion queue and the alarm list -/

/-- The ring port after notices: only the insertion queue and NOTICE_LOST may change, and the queue stays within 8. -/
structure RingNoticed (a b : RingPort) : Prop where
  line : b.line = a.line
  reception : b.reception = a.reception
  transit : b.transit = a.transit
  out : b.out = a.out
  idleSince : b.idleSince = a.idleSince
  draws : b.draws = a.draws
  counters : b.counters = { a.counters with noticeLost := b.counters.noticeLost }
  bounded : a.insertion.length ≤ 8 → b.insertion.length ≤ 8

theorem RingNoticed.refl (a : RingPort) : RingNoticed a a := ⟨rfl, rfl, rfl, rfl, rfl, rfl, rfl, id⟩

theorem RingNoticed.trans {a b c : RingPort} (h : RingNoticed a b) (k : RingNoticed b c) : RingNoticed a c where
  line := k.line.trans h.line
  reception := k.reception.trans h.reception
  transit := k.transit.trans h.transit
  out := k.out.trans h.out
  idleSince := k.idleSince.trans h.idleSince
  draws := k.draws.trans h.draws
  counters := by
    have h1 := k.counters
    rw [h.counters] at h1
    exact h1
  bounded := fun x => k.bounded (h.bounded x)

/-- Queueing a notice (R18). -/
theorem queueNotice_noticed (now : Nat) (own dest : Byte) (p : List Byte) (r : RingPort) :
    RingNoticed r (queueNotice now own dest p r) := by
  unfold queueNotice
  split
  · rename_i h
    exact ⟨rfl, rfl, rfl, rfl, rfl, rfl, rfl, fun _ => by simp; omega⟩
  · exact ⟨rfl, rfl, rfl, rfl, rfl, rfl, rfl, id⟩

/-- Entries listed once per code and subject (R168). -/
def listedOnce (l : List AlarmEntry) : Prop := l.Pairwise (fun a b => ¬ (a.code = b.code ∧ a.subject = b.subject))

/-- The alarm list after raises and clears: within 32 entries, each code and subject once. -/
structure AlarmsGrown (a b : Alarms) : Prop where
  bounded : a.list.length ≤ 32 → b.list.length ≤ 32
  once : listedOnce a.list → listedOnce b.list

theorem AlarmsGrown.refl (a : Alarms) : AlarmsGrown a a := ⟨id, id⟩

theorem AlarmsGrown.trans {a b c : Alarms} (h : AlarmsGrown a b) (k : AlarmsGrown b c) : AlarmsGrown a c :=
  ⟨fun x => k.bounded (h.bounded x), fun x => k.once (h.once x)⟩

/-- A change of entries that keeps codes and subjects keeps them listed once. -/
theorem listedOnce_map (f : AlarmEntry → AlarmEntry) (hf : ∀ e, (f e).code = e.code ∧ (f e).subject = e.subject)
    (l : List AlarmEntry) (h : listedOnce l) : listedOnce (l.map f) := by
  unfold listedOnce at *
  rw [List.pairwise_map]
  refine h.imp ?_
  intro a b hab
  rw [(hf a).1, (hf b).1, (hf a).2, (hf b).2]
  exact hab

/-- The list without its oldest CLEARED entry is a part of it. -/
theorem dropOldestCleared_sublist : ∀ l : List AlarmEntry, (dropOldestCleared l).Sublist l
  | [] => List.Sublist.refl _
  | e :: l => by
    unfold dropOldestCleared
    split
    · exact (dropOldestCleared_sublist l).cons_cons e
    · exact List.sublist_cons_self e l

/-- With a CLEARED entry listed, one entry goes. -/
theorem dropOldestCleared_length : ∀ l : List AlarmEntry, l.any (fun e => !e.active) = true →
    (dropOldestCleared l).length + 1 = l.length
  | [], h => by simp at h
  | e :: l, h => by
    unfold dropOldestCleared
    split
    · rename_i ha
      simp only [List.any_cons, ha, Bool.not_true, Bool.false_or] at h
      simp [dropOldestCleared_length l h]
    · rfl

/-- A raise (R169, R170). -/
theorem raiseOn_grown (clock : Word) (masked : Bool) (c : AlarmCode) (n : Byte) (a : Alarms) :
    AlarmsGrown a (raiseOn clock masked c n a).1 := by
  unfold raiseOn
  split
  · refine ⟨fun h => by simpa using h, fun h => listedOnce_map _ ?_ _ h⟩
    intro e
    split <;> exact ⟨rfl, rfl⟩
  · rename_i hnone
    have hfresh : ∀ e ∈ a.list, ¬ (e.code = c ∧ e.subject = n) := by
      intro e he hcn
      have := List.find?_eq_none.mp hnone e he
      simp [AlarmEntry.is, hcn.1, hcn.2] at this
    have happ : ∀ l : List AlarmEntry, l.Sublist a.list → listedOnce a.list →
        listedOnce (l ++ [newEntry clock masked c n]) := by
      intro l hl h
      unfold listedOnce at *
      rw [List.pairwise_append]
      refine ⟨h.sublist hl, List.pairwise_singleton _ _, ?_⟩
      intro x hx y hy
      rw [List.mem_singleton] at hy
      subst hy
      exact hfresh x (hl.subset hx)
    dsimp only
    split
    · rename_i hlt
      exact ⟨fun _ => by simp; omega, happ a.list (List.Sublist.refl _)⟩
    · split
      · rename_i hany
        have := dropOldestCleared_length a.list hany
        exact ⟨fun _ => by simp; omega, happ _ (dropOldestCleared_sublist a.list)⟩
      · exact ⟨id, id⟩

/-- A clear (R171). -/
theorem clearOn_grown (clock : Word) (masked : Bool) (c : AlarmCode) (n : Byte) (a : Alarms) :
    AlarmsGrown a (clearOn clock masked c n a).1 := by
  unfold clearOn
  split
  · refine ⟨fun h => by simpa using h, fun h => listedOnce_map _ ?_ _ h⟩
    intro e
    split <;> exact ⟨rfl, rfl⟩
  · exact AlarmsGrown.refl a

theorem noticeFor_noticed (s : State) (m : Bool) (x : Option AlarmEntry) : RingNoticed s.ring (s.noticeFor m x) := by
  unfold State.noticeFor
  split
  · exact queueNotice_noticed _ _ _ _ _
  · exact RingNoticed.refl _

/-! ### Groups alone -/

/-- Only groups differ, and no group's kind, red status or evidence. -/
structure GroupsOnly (s t : State) : Prop where
  same : t = { s with groups := t.groups }
  kind : ∀ g : GroupId, t.groups[g].kind = s.groups[g].kind
  redStatus : ∀ g : GroupId, t.groups[g].redStatus = s.groups[g].redStatus
  evidence : ∀ g : GroupId, t.groups[g].evidence = s.groups[g].evidence

theorem GroupsOnly.refl (s : State) : GroupsOnly s s := ⟨rfl, fun _ => rfl, fun _ => rfl, fun _ => rfl⟩

theorem GroupsOnly.trans {s t u : State} (h : GroupsOnly s t) (k : GroupsOnly t u) : GroupsOnly s u where
  same := by rw [k.same, h.same]
  kind g := (k.kind g).trans (h.kind g)
  redStatus g := (k.redStatus g).trans (h.redStatus g)
  evidence g := (k.evidence g).trans (h.evidence g)

/-- A read of a group after a write. -/
theorem getElem_setGroup (s : State) (g i : GroupId) (x : Group) :
    (s.setGroup g x).groups[i] = if g = i then x else s.groups[i] := by
  simp only [setGroup_groups, Fin.getElem_fin, Vector.getElem_set, Fin.ext_iff]

/-- A group record that keeps kind, red status and evidence. -/
theorem setGroup_groupsOnly (s : State) (g : GroupId) (x : Group) (hk : x.kind = s.groups[g].kind)
    (hr : x.redStatus = s.groups[g].redStatus) (he : x.evidence = s.groups[g].evidence) :
    GroupsOnly s (s.setGroup g x) where
  same := rfl
  kind i := by rw [getElem_setGroup]; split <;> simp_all
  redStatus i := by rw [getElem_setGroup]; split <;> simp_all
  evidence i := by rw [getElem_setGroup]; split <;> simp_all

theorem Group.terminate_keeps (x : Group) (n : Nat) (a c : Timer) :
    (x.terminate n a c).kind = x.kind ∧ (x.terminate n a c).redStatus = x.redStatus ∧
      (x.terminate n a c).evidence = x.evidence := by
  unfold Group.terminate
  split <;> exact ⟨rfl, rfl, rfl⟩

theorem Group.returnRed_keeps (x : Group) :
    x.returnRed.kind = x.kind ∧ x.returnRed.redStatus = x.redStatus ∧ x.returnRed.evidence = x.evidence := by
  unfold Group.returnRed
  split <;> exact ⟨rfl, rfl, rfl⟩

theorem Group.show_keeps (x : Group) (n : Nat) (v p : Aspect) :
    (x.show n v p).kind = x.kind ∧ (x.show n v p).redStatus = x.redStatus ∧ (x.show n v p).evidence = x.evidence := by
  unfold Group.show
  split <;> exact ⟨rfl, rfl, rfl⟩

theorem terminate_groupsOnly (s : State) (g : GroupId) : GroupsOnly s (s.terminate g) :=
  have h := Group.terminate_keeps s.groups[g] s.stamp (s.loadTimer (cfgAmber s.cfg g)) (s.loadTimer (cfgClearance s.cfg g))
  setGroup_groupsOnly s g _ h.1 h.2.1 h.2.2

theorem returnRed_groupsOnly (s : State) (g : GroupId) : GroupsOnly s (s.returnRed g) :=
  have h := Group.returnRed_keeps s.groups[g]
  setGroup_groupsOnly s g _ h.1 h.2.1 h.2.2

theorem showAll_getElem (s : State) (v p : Aspect) (g : GroupId) :
    (s.showAll v p).groups[g] = s.groups[g].show s.stamp v p := by
  simp [State.showAll]

theorem showAll_groupsOnly (s : State) (v p : Aspect) : GroupsOnly s (s.showAll v p) where
  same := rfl
  kind g := by rw [showAll_getElem]; exact (Group.show_keeps _ _ _ _).1
  redStatus g := by rw [showAll_getElem]; exact (Group.show_keeps _ _ _ _).2.1
  evidence g := by rw [showAll_getElem]; exact (Group.show_keeps _ _ _ _).2.2

theorem gain_groupsOnly (s : State) (g : GroupId) : GroupsOnly s (s.gain g) := by
  unfold State.gain
  split <;> first | exact GroupsOnly.refl s | exact setGroup_groupsOnly s g _ rfl rfl rfl

theorem withhold_groupsOnly (s : State) (g : GroupId) : GroupsOnly s (s.withhold g) :=
  setGroup_groupsOnly s g _ rfl rfl rfl

theorem tryGreen_groupsOnly (s : State) (g : GroupId) : GroupsOnly s (s.tryGreen g) := by
  unfold State.tryGreen
  split
  · exact GroupsOnly.refl s
  · split
    · exact GroupsOnly.refl s
    · split
      · exact setGroup_groupsOnly s g _ rfl rfl rfl
      · exact withhold_groupsOnly s g

theorem tryRedAmber_groupsOnly (s : State) (g : GroupId) : GroupsOnly s (s.tryRedAmber g) := by
  unfold State.tryRedAmber
  split
  · exact setGroup_groupsOnly s g _ rfl rfl rfl
  · exact withhold_groupsOnly s g

theorem release_groupsOnly (s : State) (g : GroupId) : GroupsOnly s (s.release g) := by
  unfold State.release
  dsimp only
  split
  · exact setGroup_groupsOnly s g _ rfl rfl rfl
  · exact (setGroup_groupsOnly s g
      { s.groups[g] with gain := some (s.earliestGreen g), withheld := false, withheldSince := none } rfl rfl rfl).trans
        (tryGreen_groupsOnly _ g)
  · exact GroupsOnly.refl s

theorem recheck_groupsOnly (s : State) (g : GroupId) : GroupsOnly s (s.recheck g) := by
  unfold State.recheck
  split
  · exact release_groupsOnly s g
  · exact GroupsOnly.refl s

/-- A fold whose every step changes groups alone. -/
theorem foldl_groupsOnly {α : Type} (f : State → α → State) (h : ∀ s a, GroupsOnly s (f s a)) (l : List α) (s : State) :
    GroupsOnly s (l.foldl f s) :=
  foldl_keeps (GroupsOnly s) f (fun t a ht => ht.trans (h t a)) l s (GroupsOnly.refl s)

theorem recheckAround_groupsOnly (s : State) (i : GroupId) : GroupsOnly s (s.recheckAround i) := by
  refine foldl_groupsOnly _ (fun t g => ?_) _ _
  split
  · exact recheck_groupsOnly t g
  · exact GroupsOnly.refl t

theorem retryAround_groupsOnly (s : State) (i : GroupId) : GroupsOnly s (s.retryAround i) := by
  refine foldl_groupsOnly _ (fun t g => ?_) _ _
  split
  · exact tryGreen_groupsOnly t g
  · exact GroupsOnly.refl t

theorem endTermination_groupsOnly (s : State) (g : GroupId) : GroupsOnly s (s.endTermination g) :=
  setGroup_groupsOnly s g _ rfl rfl rfl

theorem clearToRed_groupsOnly (s : State) : GroupsOnly s s.clearToRed := by
  refine foldl_groupsOnly _ (fun t g => ?_) _ _
  dsimp only
  split
  · exact terminate_groupsOnly t g
  · exact terminate_groupsOnly t g
  · split
    · exact terminate_groupsOnly t g
    · exact GroupsOnly.refl t
  · exact returnRed_groupsOnly t g
  · split
    · exact returnRed_groupsOnly t g
    · exact GroupsOnly.refl t
  · exact GroupsOnly.refl t
  · exact GroupsOnly.refl t

theorem changeRequests_groupsOnly (s : State) (n : Nat) : GroupsOnly s (s.changeRequests n) := by
  unfold State.changeRequests
  dsimp only
  refine GroupsOnly.trans (foldl_groupsOnly _ (fun t g => ?_) _ s)
    (GroupsOnly.trans (foldl_groupsOnly _ (fun t g => ?_) _ _) (foldl_groupsOnly _ (fun t g => ?_) _ _))
  · split
    · exact terminate_groupsOnly t g
    · exact GroupsOnly.refl t
  · split
    · exact returnRed_groupsOnly t g
    · exact GroupsOnly.refl t
  · split
    · exact gain_groupsOnly t g
    · exact GroupsOnly.refl t

/-! ### Control: the sequencer's own fields, groups, fallback, alarms -/

/-- What modes, aspects, evidence and red status touch. -/
structure Control (s t : State) : Prop where
  now : t.now = s.now
  resetEnd : t.resetEnd = s.resetEnd
  phase : t.phase = s.phase
  ring : RingNoticed s.ring t.ring
  classifier : t.classifier = s.classifier
  mgmt : t.mgmt = s.mgmt
  nv : t.nv = s.nv
  demand : t.demand = { s.demand with held := t.demand.held }
  clock : t.seq.clock = s.seq.clock
  clockSince : t.seq.clockSince = s.seq.clockSince
  control : t.seq.control = s.seq.control
  supervision : t.seq.supervision = s.seq.supervision
  currentPlan : t.seq.currentPlan = s.seq.currentPlan
  supervisedPlan : t.seq.supervisedPlan = s.seq.supervisedPlan
  pendingPlan : t.seq.pendingPlan = s.seq.pendingPlan
  pointer : t.seq.pointer = s.seq.pointer
  kind : ∀ g : GroupId, t.groups[g].kind = s.groups[g].kind
  drive : t.drive = s.drive
  scanner : t.scanner = s.scanner
  circuits : t.circuits = s.circuits
  cable : t.cable = s.cable
  alarms : AlarmsGrown s.alarms t.alarms
  pending : t.pending = s.pending

theorem Control.refl (s : State) : Control s s :=
  ⟨rfl, rfl, rfl, RingNoticed.refl _, rfl, rfl, rfl, rfl, rfl, rfl, rfl, rfl, rfl, rfl, rfl, rfl, fun _ => rfl, rfl, rfl, rfl, rfl,
    AlarmsGrown.refl _, rfl⟩

theorem Control.trans {s t u : State} (h : Control s t) (k : Control t u) : Control s u where
  now := k.now.trans h.now
  resetEnd := k.resetEnd.trans h.resetEnd
  phase := k.phase.trans h.phase
  ring := h.ring.trans k.ring
  classifier := k.classifier.trans h.classifier
  mgmt := k.mgmt.trans h.mgmt
  nv := k.nv.trans h.nv
  demand := by rw [k.demand, h.demand]
  clock := k.clock.trans h.clock
  clockSince := k.clockSince.trans h.clockSince
  control := k.control.trans h.control
  supervision := k.supervision.trans h.supervision
  currentPlan := k.currentPlan.trans h.currentPlan
  supervisedPlan := k.supervisedPlan.trans h.supervisedPlan
  pendingPlan := k.pendingPlan.trans h.pendingPlan
  pointer := k.pointer.trans h.pointer
  kind g := (k.kind g).trans (h.kind g)
  drive := k.drive.trans h.drive
  scanner := k.scanner.trans h.scanner
  circuits := k.circuits.trans h.circuits
  cable := k.cable.trans h.cable
  alarms := h.alarms.trans k.alarms
  pending := k.pending.trans h.pending

theorem foldl_control {α : Type} (f : State → α → State) (h : ∀ s a, Control s (f s a)) (l : List α) (s : State) :
    Control s (l.foldl f s) :=
  foldl_keeps (Control s) f (fun t a ht => ht.trans (h t a)) l s (Control.refl s)

theorem GroupsOnly.control {s t : State} (h : GroupsOnly s t) : Control s t where
  now := by rw [h.same]
  resetEnd := by rw [h.same]
  phase := by rw [h.same]
  ring := by rw [h.same]; exact RingNoticed.refl _
  classifier := by rw [h.same]
  mgmt := by rw [h.same]
  nv := by rw [h.same]
  demand := by rw [h.same]
  clock := by rw [h.same]
  clockSince := by rw [h.same]
  control := by rw [h.same]
  supervision := by rw [h.same]
  currentPlan := by rw [h.same]
  supervisedPlan := by rw [h.same]
  pendingPlan := by rw [h.same]
  pointer := by rw [h.same]
  kind := h.kind
  drive := by rw [h.same]
  scanner := by rw [h.same]
  circuits := by rw [h.same]
  cable := by rw [h.same]
  alarms := by rw [h.same]; exact AlarmsGrown.refl _
  pending := by rw [h.same]

/-- A change of the sequencer's own fields, the held extensions and the fallback records. -/
theorem Control.of_fields (s : State) (q : Sequencer) (d : Demand) (f : Fallback)
    (hd : d = { s.demand with held := d.held })
    (hq : q.clock = s.seq.clock ∧ q.clockSince = s.seq.clockSince ∧ q.control = s.seq.control ∧
      q.supervision = s.seq.supervision ∧ q.currentPlan = s.seq.currentPlan ∧ q.supervisedPlan = s.seq.supervisedPlan ∧
      q.pendingPlan = s.seq.pendingPlan ∧ q.pointer = s.seq.pointer) :
    Control s { s with seq := q, demand := d, fallback := f } :=
  ⟨rfl, rfl, rfl, RingNoticed.refl _, rfl, rfl, rfl, hd, hq.1, hq.2.1, hq.2.2.1, hq.2.2.2.1, hq.2.2.2.2.1, hq.2.2.2.2.2.1,
    hq.2.2.2.2.2.2.1, hq.2.2.2.2.2.2.2, fun _ => rfl, rfl, rfl, rfl, rfl, AlarmsGrown.refl _, rfl⟩

theorem raise_control (s : State) (c : AlarmCode) (n : Byte) : Control s (s.raise c n) :=
  ⟨rfl, rfl, rfl, noticeFor_noticed _ _ _, rfl, rfl, rfl, rfl, rfl, rfl, rfl, rfl, rfl, rfl, rfl, rfl, fun _ => rfl, rfl, rfl,
    rfl, rfl, raiseOn_grown _ _ _ _ _, rfl⟩

theorem clear_control (s : State) (c : AlarmCode) (n : Byte) : Control s (s.clear c n) :=
  ⟨rfl, rfl, rfl, noticeFor_noticed _ _ _, rfl, rfl, rfl, rfl, rfl, rfl, rfl, rfl, rfl, rfl, rfl, rfl, fun _ => rfl, rfl, rfl,
    rfl, rfl, clearOn_grown _ _ _ _ _, rfl⟩

theorem stageEnd_control (s : State) (n : Nat) : Control s (s.stageEnd n) := by
  refine ⟨rfl, rfl, rfl, ?_, rfl, rfl, rfl, rfl, rfl, rfl, rfl, rfl, rfl, rfl, rfl, rfl, fun _ => rfl, rfl, rfl, rfl, rfl,
    ⟨id, id⟩, rfl⟩
  unfold State.stageEnd
  dsimp only
  split
  · exact queueNotice_noticed _ _ _ _ _
  · exact RingNoticed.refl _

theorem alarmEvents_control (s : State) (n : Byte) (l : List AlarmEvent) : Control s (s.alarmEvents n l) := by
  refine foldl_control _ (fun t e => ?_) l s
  split
  · exact raise_control t e.2 n
  · exact clear_control t e.2 n

theorem followFallback_control (s : State) (b : Bool) : Control s (s.followFallback b) := by
  unfold State.followFallback
  split
  · exact raise_control s _ _
  · exact clear_control s _ _
  · exact Control.refl s
  · exact Control.refl s

theorem endNormal_control (s : State) : Control s s.endNormal :=
  Control.of_fields s _ _ s.fallback rfl ⟨rfl, rfl, rfl, rfl, rfl, rfl, rfl, rfl⟩

theorem leaveNormal_control (s : State) : Control s s.leaveNormal := by
  unfold State.leaveNormal
  split
  · exact endNormal_control s
  · exact Control.refl s

theorem shift_control (s : State) (m : JunctionMode) (f : Fallback) : Control s (s.shift m f) :=
  (Control.of_fields s { s.seq with mode := m } s.demand f rfl ⟨rfl, rfl, rfl, rfl, rfl, rfl, rfl, rfl⟩).trans
    (followFallback_control _ _)

theorem toFlash_control (s : State) (f : Fallback) : Control s (s.toFlash f) :=
  ((leaveNormal_control s).trans (shift_control _ _ _)).trans (showAll_groupsOnly _ _ _).control

theorem toDark_control (s : State) (f : Fallback) : Control s (s.toDark f) :=
  ((leaveNormal_control s).trans (shift_control _ _ _)).trans (showAll_groupsOnly _ _ _).control

theorem controlled_control (s : State) (c : Cause) (n : Byte) : Control s (s.controlled c n) := by
  unfold State.controlled
  dsimp only
  split
  · exact ((leaveNormal_control s).trans (shift_control _ _ _)).trans (clearToRed_groupsOnly _).control
  · split
    · exact Control.refl s
    · exact shift_control s _ _

theorem redLossAtStart_control (s : State) : Control s s.redLossAtStart := by
  unfold State.redLossAtStart
  split
  · refine foldl_control _ (fun t g => ?_) _ s
    split
    · exact controlled_control t _ _
    · exact Control.refl t
  · exact Control.refl s

theorem enterStart_control (s : State) (f : Fallback) : Control s (s.enterStart f) := by
  unfold State.enterStart
  dsimp only
  have h : Control s (s.endNormal.shift .start { f with failRed := .none }).showRed :=
    ((endNormal_control s).trans (shift_control _ _ _)).trans (showAll_groupsOnly _ _ _).control
  generalize (s.endNormal.shift .start { f with failRed := .none }).showRed = u at h ⊢
  refine Control.trans (h.trans ?_) (redLossAtStart_control _)
  exact Control.of_fields u { u.seq with startRed := some (u.loadTimer (cfgStartRed u.cfg)) } u.demand u.fallback rfl
    ⟨rfl, rfl, rfl, rfl, rfl, rfl, rfl, rfl⟩

theorem conflictDetected_control (s : State) (l : List Byte) : Control s (s.conflictDetected l) := by
  unfold State.conflictDetected
  split
  · exact Control.refl s
  · dsimp only
    rename_i p rest
    have hf : Control s { s with fallback := { s.fallback with latch := true } } :=
      Control.of_fields s s.seq s.demand _ rfl ⟨rfl, rfl, rfl, rfl, rfl, rfl, rfl, rfl⟩
    have h := hf.trans (foldl_control (fun t q => t.raise .conflict q) (fun t q => raise_control t .conflict q) (p :: rest) _)
    split
    · exact h.trans (shift_control _ _ _)
    · split
      · exact h.trans (toDark_control _ _)
      · exact h.trans (shift_control _ _ _)
    all_goals
      split
      · exact h.trans (toDark_control _ _)
      · exact h.trans (toFlash_control _ _)

/-- A group record that keeps its kind. -/
theorem setGroup_control (s : State) (g : GroupId) (x : Group) (hk : x.kind = s.groups[g].kind) :
    Control s (s.setGroup g x) := by
  refine ⟨rfl, rfl, rfl, RingNoticed.refl _, rfl, rfl, rfl, rfl, rfl, rfl, rfl, rfl, rfl, rfl, rfl, rfl, fun i => ?_, rfl, rfl, rfl,
    rfl, AlarmsGrown.refl _, rfl⟩
  rw [getElem_setGroup]
  split <;> simp_all

theorem dropEndedPairs_control (s : State) : Control s s.dropEndedPairs :=
  Control.of_fields s s.seq s.demand _ rfl ⟨rfl, rfl, rfl, rfl, rfl, rfl, rfl, rfl⟩

theorem setEvidence_control (s : State) (g : GroupId) (v : Bool) : Control s (s.setEvidence g v) := by
  unfold State.setEvidence
  dsimp only
  have h : Control s ((s.setGroup g { s.groups[g] with evidence := v }).dropEndedPairs.recheckAround g) :=
    ((setGroup_control s g { s.groups[g] with evidence := v } rfl).trans (dropEndedPairs_control _)).trans
      (recheckAround_groupsOnly _ _).control
  generalize (s.setGroup g { s.groups[g] with evidence := v }).dropEndedPairs.recheckAround g = u at h ⊢
  split
  · exact h.trans (conflictDetected_control _ _)
  · exact h

theorem refreshEvidence_control (s : State) : Control s s.refreshEvidence := by
  unfold State.refreshEvidence
  dsimp only
  refine Control.trans (foldl_control _ (fun t g => ?_) _ s) (foldl_control _ (fun t g => ?_) _ _)
  · split
    · exact setEvidence_control t g _
    · exact Control.refl t
  · split
    · exact setEvidence_control t g _
    · exact Control.refl t

theorem setRedStatus_control (s : State) (g : GroupId) (v : RedStatus) : Control s (s.setRedStatus g v) := by
  unfold State.setRedStatus
  dsimp only
  have h : Control s ((s.setGroup g { s.groups[g] with redStatus := v }).recheckAround g) :=
    (setGroup_control s g { s.groups[g] with redStatus := v } rfl).trans (recheckAround_groupsOnly _ _).control
  generalize (s.setGroup g { s.groups[g] with redStatus := v }).recheckAround g = u at h ⊢
  split
  · exact h
  · exact h.trans (clear_control _ _ _)
  · exact h.trans (clear_control _ _ _)
  · split
    · exact (h.trans (raise_control _ _ _)).trans (controlled_control _ _ _)
    · exact h.trans (raise_control _ _ _)
  · split
    · exact (h.trans (raise_control _ _ _)).trans (controlled_control _ _ _)
    · exact h.trans (raise_control _ _ _)
  all_goals exact h

theorem refreshRed_control (s : State) : Control s s.refreshRed := by
  refine foldl_control _ (fun t g => ?_) _ s
  split
  · exact Control.refl t
  · exact setRedStatus_control t g _

/-! ### The lamp side -/

/-- What the lamp side touches: besides `Control`, the drive, scanner, circuit and core records. -/
structure Lamp (s t : State) : Prop where
  now : t.now = s.now
  resetEnd : t.resetEnd = s.resetEnd
  phase : t.phase = s.phase
  ring : RingNoticed s.ring t.ring
  classifier : t.classifier = s.classifier
  mgmt : t.mgmt = s.mgmt
  nv : t.nv = s.nv
  demand : t.demand = { s.demand with held := t.demand.held }
  clock : t.seq.clock = s.seq.clock
  clockSince : t.seq.clockSince = s.seq.clockSince
  control : t.seq.control = s.seq.control
  supervision : t.seq.supervision = s.seq.supervision
  currentPlan : t.seq.currentPlan = s.seq.currentPlan
  supervisedPlan : t.seq.supervisedPlan = s.seq.supervisedPlan
  pendingPlan : t.seq.pendingPlan = s.seq.pendingPlan
  pointer : t.seq.pointer = s.seq.pointer
  kind : ∀ g : GroupId, t.groups[g].kind = s.groups[g].kind
  driveEn : t.drive.driveEn = s.drive.driveEn
  pin : t.drive.pin = s.drive.pin
  halfCycles : t.drive.halfCycles = s.drive.halfCycles
  flashOn : t.drive.flashOn = s.drive.flashOn
  flashSince : t.drive.flashSince = s.drive.flashSince
  mains : t.scanner.mains = s.scanner.mains
  alarms : AlarmsGrown s.alarms t.alarms
  pending : t.pending = s.pending

theorem Control.lamp {s t : State} (h : Control s t) : Lamp s t :=
  ⟨h.now, h.resetEnd, h.phase, h.ring, h.classifier, h.mgmt, h.nv, h.demand, h.clock, h.clockSince, h.control, h.supervision,
    h.currentPlan, h.supervisedPlan, h.pendingPlan, h.pointer, h.kind, by rw [h.drive], by rw [h.drive], by rw [h.drive],
    by rw [h.drive], by rw [h.drive], by rw [h.scanner], h.alarms, h.pending⟩

theorem Lamp.refl (s : State) : Lamp s s := (Control.refl s).lamp

theorem Lamp.trans {s t u : State} (h : Lamp s t) (k : Lamp t u) : Lamp s u where
  now := k.now.trans h.now
  resetEnd := k.resetEnd.trans h.resetEnd
  phase := k.phase.trans h.phase
  ring := h.ring.trans k.ring
  classifier := k.classifier.trans h.classifier
  mgmt := k.mgmt.trans h.mgmt
  nv := k.nv.trans h.nv
  demand := by rw [k.demand, h.demand]
  clock := k.clock.trans h.clock
  clockSince := k.clockSince.trans h.clockSince
  control := k.control.trans h.control
  supervision := k.supervision.trans h.supervision
  currentPlan := k.currentPlan.trans h.currentPlan
  supervisedPlan := k.supervisedPlan.trans h.supervisedPlan
  pendingPlan := k.pendingPlan.trans h.pendingPlan
  pointer := k.pointer.trans h.pointer
  kind g := (k.kind g).trans (h.kind g)
  driveEn := k.driveEn.trans h.driveEn
  pin := k.pin.trans h.pin
  halfCycles := k.halfCycles.trans h.halfCycles
  flashOn := k.flashOn.trans h.flashOn
  flashSince := k.flashSince.trans h.flashSince
  mains := k.mains.trans h.mains
  alarms := h.alarms.trans k.alarms
  pending := k.pending.trans h.pending

theorem foldl_lamp {α : Type} (f : State → α → State) (h : ∀ s a, Lamp s (f s a)) (l : List α) (s : State) :
    Lamp s (l.foldl f s) :=
  foldl_keeps (Lamp s) f (fun t a ht => ht.trans (h t a)) l s (Lamp.refl s)

theorem setCircuit_lamp (s : State) (n : CircuitId) (r : ProvingRecord) : Lamp s (s.setCircuit n r) :=
  ⟨rfl, rfl, rfl, RingNoticed.refl _, rfl, rfl, rfl, rfl, rfl, rfl, rfl, rfl, rfl, rfl, rfl, rfl, fun _ => rfl, rfl, rfl, rfl, rfl,
    rfl, rfl, AlarmsGrown.refl _, rfl⟩

theorem setCore_lamp (s : State) (n : CircuitId) (r : CoreRecord) : Lamp s (s.setCore n r) :=
  ⟨rfl, rfl, rfl, RingNoticed.refl _, rfl, rfl, rfl, rfl, rfl, rfl, rfl, rfl, rfl, rfl, rfl, rfl, fun _ => rfl, rfl, rfl, rfl, rfl,
    rfl, rfl, AlarmsGrown.refl _, rfl⟩

theorem setDrive_lamp (s : State) (n : CircuitId) (r : DriveRecord) : Lamp s (s.setDrive n r) :=
  ⟨rfl, rfl, rfl, RingNoticed.refl _, rfl, rfl, rfl, rfl, rfl, rfl, rfl, rfl, rfl, rfl, rfl, rfl, fun _ => rfl, rfl, rfl, rfl, rfl,
    rfl, rfl, AlarmsGrown.refl _, rfl⟩

theorem Scanner.cancelLeak_mains (x : Scanner) (n : CircuitId) : (x.cancelLeak n).mains = x.mains := by
  unfold Scanner.cancelLeak
  split
  · split <;> rfl
  · rfl

theorem cancelLeak_lamp (s : State) (n : CircuitId) : Lamp s { s with scanner := s.scanner.cancelLeak n } :=
  ⟨rfl, rfl, rfl, RingNoticed.refl _, rfl, rfl, rfl, rfl, rfl, rfl, rfl, rfl, rfl, rfl, rfl, rfl, fun _ => rfl, rfl, rfl, rfl, rfl,
    rfl, Scanner.cancelLeak_mains _ _, AlarmsGrown.refl _, rfl⟩

theorem clearProving_lamp (s : State) (n : CircuitId) : Lamp s (s.clearProving n) :=
  ((setCircuit_lamp s n _).trans (setDrive_lamp _ n _)).trans
    ((alarmEvents_control _ _ _).trans (refreshRed_control _)).lamp

theorem coreBroken_lamp (s : State) (n : CircuitId) : Lamp s (s.coreBroken n) := by
  unfold State.coreBroken
  split
  · exact Lamp.refl s
  · exact Lamp.refl s
  all_goals
    exact (setCircuit_lamp s n _).trans ((alarmEvents_control _ _ _).trans (refreshRed_control _)).lamp

theorem coreMended_lamp (s : State) (n : CircuitId) : Lamp s (s.coreMended n) := by
  unfold State.coreMended
  split
  · exact (setCircuit_lamp s n _).trans (refreshRed_control _).lamp
  all_goals exact Lamp.refl s

theorem currentReading_lamp (s : State) (n : CircuitId) (v : Nat) : Lamp s (s.currentReading n v) := by
  unfold State.currentReading
  dsimp only
  split
  · split
    · exact ((setCircuit_lamp s n _).trans (setDrive_lamp _ n _)).trans
        ((alarmEvents_control _ _ _).trans (refreshRed_control _)).lamp
    · exact (setCircuit_lamp s n _).trans ((alarmEvents_control _ _ _).trans (refreshRed_control _)).lamp
  · exact setCircuit_lamp s n _

theorem moveCore_lamp (s : State) (n : CircuitId) (r : CoreRecord) : Lamp s (s.moveCore n r) := by
  have h0 := setCore_lamp s n r
  unfold State.moveCore
  dsimp only
  generalize s.setCore n r = a at h0 ⊢
  generalize s.cable.cores[n].state = old
  split
  · exact h0
  · have tail : ∀ b : State, Lamp s b →
        Lamp s (if (decide (old = CoreState.crossFeed) || decide (r.state = CoreState.crossFeed)) = true then
            (if r.state.breaks = true then b.coreBroken n
              else if old.breaks = true then b.coreMended n else b).refreshEvidence
          else if r.state.breaks = true then b.coreBroken n
            else if old.breaks = true then b.coreMended n else b) := by
      intro b hb
      have h3 : Lamp s (if r.state.breaks = true then b.coreBroken n
          else if old.breaks = true then b.coreMended n else b) := by
        split
        · exact hb.trans (coreBroken_lamp b n)
        · split
          · exact hb.trans (coreMended_lamp b n)
          · exact hb
      split
      · exact h3.trans (refreshEvidence_control _).lamp
      · exact h3
    refine tail _ (Lamp.trans ?_ (alarmEvents_control _ _ _).lamp)
    split
    · exact h0
    · exact h0
    all_goals exact h0.trans (cancelLeak_lamp a n)

theorem voltageReading_lamp (s : State) (n : CircuitId) (v : Nat) : Lamp s (s.voltageReading n v) := by
  unfold State.voltageReading
  split
  · exact moveCore_lamp s n _
  · exact Lamp.refl s

theorem coreRetest_lamp (s : State) (n : CircuitId) : Lamp s (s.coreRetest n) :=
  (cancelLeak_lamp s n).trans (moveCore_lamp _ n _)

theorem switch_lamp (s : State) (n : CircuitId) (on : Bool) : Lamp s (s.switch n on) := by
  unfold State.switch
  dsimp only
  have h := (setDrive_lamp s n { s.drive.records[n] with applied := on, changedAt := s.drive.halfCycles, before := none }).trans
    (setCore_lamp _ n (((s.setDrive n
      { s.drive.records[n] with applied := on, changedAt := s.drive.halfCycles, before := none }).cable.cores[n]).switched on s.stamp))
  split
  · exact h.trans (cancelLeak_lamp _ n)
  · exact h

theorem applyTargets_lamp (s : State) : Lamp s s.applyTargets := by
  unfold State.applyTargets
  refine Lamp.trans (foldl_lamp _ (fun t n => ?_) _ s) (refreshEvidence_control _).lamp
  split
  · exact Lamp.refl t
  · exact switch_lamp t n _

/-- A change of drive and core records alone. -/
theorem Lamp.of_records (s : State) (ds : Vector DriveRecord 24) (ks : Vector CoreRecord 24) :
    Lamp s { s with drive := { s.drive with records := ds }, cable := { s.cable with cores := ks } } :=
  ⟨rfl, rfl, rfl, RingNoticed.refl _, rfl, rfl, rfl, rfl, rfl, rfl, rfl, rfl, rfl, rfl, rfl, rfl, fun _ => rfl, rfl, rfl, rfl, rfl,
    rfl, rfl, AlarmsGrown.refl _, rfl⟩

theorem remember_lamp (t s : State) : Lamp t (t.remember s) := Lamp.of_records t _ t.cable.cores

theorem forget_lamp (s : State) : Lamp s s.forget := Lamp.of_records s _ s.cable.cores

theorem takeBack_lamp (s : State) : Lamp s s.takeBack := Lamp.of_records s _ _

theorem applyLost_lamp (s : State) : Lamp s s.applyLost := by
  unfold State.applyLost
  split
  · exact (applyTargets_lamp s).trans (remember_lamp _ s)
  · exact Lamp.refl s

end Sys2Proof.Machine
end

