-- ==== Sys2Proof/Laws/Alarms.lean ====
section
/-! SUPPORT. What a raise and a clear leave in the alarm list (R168 to R171). -/

namespace Sys2Proof.Machine

/-- The test of code and subject. -/
theorem AlarmEntry.is_iff (e : AlarmEntry) (c : AlarmCode) (n : Byte) : e.is c n = true ↔ e.code = c ∧ e.subject = n := by
  simp [AlarmEntry.is]

/-- After a clear no entry of that code and subject is ACTIVE (R171). -/
theorem clearOn_inactive (clock : Word) (m : Bool) (c : AlarmCode) (n : Byte) (a : Alarms) :
    ∀ e ∈ (clearOn clock m c n a).1.list, e.code = c → e.subject = n → e.active = false := by
  intro e he hc hn
  unfold clearOn at he
  split at he
  · simp only [List.mem_map] at he
    obtain ⟨x, hx, rfl⟩ := he
    by_cases hxa : (x.is c n && x.active) = true
    · simp [hxa, clearEntry]
    · simp only [hxa] at hc hn ⊢
      simp only [Bool.false_eq_true, ↓reduceIte] at hc hn ⊢
      have hi : x.is c n = true := (AlarmEntry.is_iff x c n).mpr ⟨hc, hn⟩
      simpa [hi] using hxa
  · rename_i hnone
    have := List.find?_eq_none.mp hnone e he
    have hi : e.is c n = true := (AlarmEntry.is_iff e c n).mpr ⟨hc, hn⟩
    simpa [hi] using this

/-- After a clear no entry of that code and subject is ACTIVE (R171). -/
theorem clear_inactive (s : State) (c : AlarmCode) (n : Byte) :
    ∀ e ∈ (s.clear c n).alarms.list, e.code = c → e.subject = n → e.active = false :=
  clearOn_inactive _ _ _ _ _

/-- A clear makes no entry ACTIVE: what is ACTIVE after it was there before. -/
theorem clearOn_active_mem (clock : Word) (m : Bool) (c : AlarmCode) (n : Byte) (a : Alarms) :
    ∀ e ∈ (clearOn clock m c n a).1.list, e.active = true → e ∈ a.list := by
  intro e he ha
  unfold clearOn at he
  split at he
  · simp only [List.mem_map] at he
    obtain ⟨x, hx, rfl⟩ := he
    by_cases hxa : (x.is c n && x.active) = true
    · simp [hxa, clearEntry] at ha
    · simp only [hxa]
      exact hx
  · exact he

/-- A raise of an alarm leaves an ACTIVE entry of another code as it was, or adds none of it. -/
theorem raiseOn_mem (clock : Word) (m : Bool) (c : AlarmCode) (n : Byte) (a : Alarms) :
    ∀ e ∈ (raiseOn clock m c n a).1.list, e.is c n = false → e ∈ a.list := by
  intro e he hn
  unfold raiseOn at he
  split at he
  · simp only [List.mem_map] at he
    obtain ⟨x, hx, rfl⟩ := he
    by_cases hxi : x.is c n = true
    · simp only [hxi, ↓reduceIte] at hn
      have hi : (raiseEntry clock m x).is c n = true := (AlarmEntry.is_iff _ c n).mpr ((AlarmEntry.is_iff x c n).mp hxi)
      exact absurd hi (by simp [hn])
    · simp only [hxi]
      exact hx
  · dsimp only at he
    have hf : (newEntry clock m c n).is c n = true := by simp [AlarmEntry.is, newEntry]
    split at he
    · rcases List.mem_append.mp he with h | h
      · exact h
      · rw [List.mem_singleton] at h; subst h; rw [hf] at hn; exact absurd hn (by decide)
    · split at he
      · rcases List.mem_append.mp he with h | h
        · exact (dropOldestCleared_sublist a.list).subset h
        · rw [List.mem_singleton] at h; subst h; rw [hf] at hn; exact absurd hn (by decide)
      · exact he

end Sys2Proof.Machine
end

