-- ==== Sys2Proof/Laws/Settle.lean ====
section
/-! SUPPORT. What stage changes, step ends, demand events, the swap and settling touch: `Settled s t` says what they leave. -/

namespace Sys2Proof.Machine

/-- What a stage change, a step end, a demand event, the swap or settling touches. -/
structure Settled (s t : State) : Prop where
  now : t.now = s.now
  resetEnd : t.resetEnd = s.resetEnd
  phase : t.phase = s.phase
  ring : RingNoticed s.ring t.ring
  classifier : t.classifier = s.classifier
  mgmt : t.mgmt = { s.mgmt with active := t.mgmt.active, activation := t.mgmt.activation }
  active : t.mgmt.active = s.mgmt.active ∨ t.mgmt.active = some s.mgmt.staging
  nv : t.nv = s.nv
  demand : t.demand = { s.demand with register := t.demand.register, held := t.demand.held }
  clock : t.seq.clock = s.seq.clock
  clockSince : t.seq.clockSince = s.seq.clockSince
  control : t.seq.control = s.seq.control
  supervision : t.seq.supervision = s.seq.supervision
  driveEn : t.drive.driveEn = s.drive.driveEn
  pin : t.drive.pin = s.drive.pin
  halfCycles : t.drive.halfCycles = s.drive.halfCycles
  flashOn : t.drive.flashOn = s.drive.flashOn
  flashSince : t.drive.flashSince = s.drive.flashSince
  mains : t.scanner.mains = s.scanner.mains
  alarms : AlarmsGrown s.alarms t.alarms
  pending : t.pending = s.pending

theorem Lamp.settled {s t : State} (h : Lamp s t) : Settled s t :=
  ⟨h.now, h.resetEnd, h.phase, h.ring, h.classifier, by rw [h.mgmt], Or.inl (by rw [h.mgmt]), h.nv, by rw [h.demand], h.clock,
    h.clockSince, h.control, h.supervision, h.driveEn, h.pin, h.halfCycles, h.flashOn, h.flashSince, h.mains, h.alarms, h.pending⟩

theorem Control.settled {s t : State} (h : Control s t) : Settled s t := h.lamp.settled

theorem GroupsOnly.settled {s t : State} (h : GroupsOnly s t) : Settled s t := h.control.settled

theorem Settled.refl (s : State) : Settled s s := (Control.refl s).settled

theorem Settled.trans {s t u : State} (h : Settled s t) (k : Settled t u) : Settled s u where
  now := k.now.trans h.now
  resetEnd := k.resetEnd.trans h.resetEnd
  phase := k.phase.trans h.phase
  ring := h.ring.trans k.ring
  classifier := k.classifier.trans h.classifier
  mgmt := by rw [k.mgmt, h.mgmt]
  active := by
    have hs : t.mgmt.staging = s.mgmt.staging := by rw [h.mgmt]
    rcases k.active with e | e
    · rw [e]; exact h.active
    · rw [e, hs]; exact Or.inr rfl
  nv := k.nv.trans h.nv
  demand := by rw [k.demand, h.demand]
  clock := k.clock.trans h.clock
  clockSince := k.clockSince.trans h.clockSince
  control := k.control.trans h.control
  supervision := k.supervision.trans h.supervision
  driveEn := k.driveEn.trans h.driveEn
  pin := k.pin.trans h.pin
  halfCycles := k.halfCycles.trans h.halfCycles
  flashOn := k.flashOn.trans h.flashOn
  flashSince := k.flashSince.trans h.flashSince
  mains := k.mains.trans h.mains
  alarms := h.alarms.trans k.alarms
  pending := k.pending.trans h.pending

theorem foldl_settled {α : Type} (f : State → α → State) (h : ∀ s a, Settled s (f s a)) (l : List α) (s : State) :
    Settled s (l.foldl f s) :=
  foldl_keeps (Settled s) f (fun t a ht => ht.trans (h t a)) l s (Settled.refl s)

/-- A change of the sequencer (not its clock, control source or supervision timer), of the register and the held extensions, of the
groups, of the fallback records and of the lamp side's records. -/
theorem Settled.of_fields (s : State) (q : Sequencer) (d : Demand) (gs : Vector Group 8) (f : Fallback)
    (cs : Vector ProvingRecord 24) (ca : Cable) (ds : Vector DriveRecord 24) (lt : Option (CircuitId × Nat))
    (hd : d = { s.demand with register := d.register, held := d.held })
    (hq : q.clock = s.seq.clock ∧ q.clockSince = s.seq.clockSince ∧ q.control = s.seq.control ∧
      q.supervision = s.seq.supervision) :
    Settled s { s with seq := q, demand := d, groups := gs, fallback := f, circuits := cs, cable := ca,
                       drive := { s.drive with records := ds }, scanner := { s.scanner with leakTest := lt } } :=
  ⟨rfl, rfl, rfl, RingNoticed.refl _, rfl, rfl, Or.inl rfl, rfl, hd, hq.1, hq.2.1, hq.2.2.1, hq.2.2.2, rfl, rfl, rfl, rfl, rfl,
    rfl, AlarmsGrown.refl _, rfl⟩

/-- A change of the sequencer, the register and the held extensions. -/
theorem Settled.of_seq (s : State) (q : Sequencer) (d : Demand)
    (hd : d = { s.demand with register := d.register, held := d.held })
    (hq : q.clock = s.seq.clock ∧ q.clockSince = s.seq.clockSince ∧ q.control = s.seq.control ∧
      q.supervision = s.seq.supervision) : Settled s { s with seq := q, demand := d } :=
  Settled.of_fields s q d s.groups s.fallback s.circuits s.cable s.drive.records s.scanner.leakTest hd hq

/-! ### Stages -/

theorem minStart_settled (s : State) : Settled s s.minStart := by
  unfold State.minStart
  split
  · exact Settled.refl s
  · exact Settled.of_seq s _ _ rfl ⟨rfl, rfl, rfl, rfl⟩

theorem completeStage_settled (s : State) : Settled s s.completeStage := by
  unfold State.completeStage
  split
  · split
    · exact minStart_settled s
    · exact Settled.refl s
  · exact Settled.refl s

theorem changeStage_settled (s : State) (leaving : Bool) (n : Nat) : Settled s (s.changeStage leaving n) := by
  unfold State.changeStage
  dsimp only
  refine Settled.trans ?_ (completeStage_settled _)
  refine Settled.trans ?_ (changeRequests_groupsOnly _ _).settled
  split
  · exact (stageEnd_control s _).settled.trans (Settled.of_seq _ _ _ rfl ⟨rfl, rfl, rfl, rfl⟩)
  · exact Settled.of_seq s _ _ rfl ⟨rfl, rfl, rfl, rfl⟩

theorem chooseStep_settled (s : State) (k : Nat) : Settled s (s.chooseStep k) := by
  unfold State.chooseStep
  dsimp only
  have h : Settled s { s with seq := { s.seq with pointer := k, force := .none, switchKept := false } } :=
    Settled.of_seq s { s.seq with pointer := k, force := .none, switchKept := false } s.demand rfl ⟨rfl, rfl, rfl, rfl⟩
  split
  · exact h.trans (minStart_settled _)
  · exact h.trans (changeStage_settled _ _ _)

theorem planSwitch_settled (s : State) : Settled s s.planSwitch := by
  unfold State.planSwitch
  dsimp only
  generalize (if s.seq.isolatedSwitch then cfgIsolatedPlan s.cfg else s.seq.pendingPlan.getD s.seq.currentPlan) = plan
  have h : Settled s { s with seq := { s.seq with currentPlan := plan, pendingPlan := none, isolatedSwitch := false } } :=
    Settled.of_seq s { s.seq with currentPlan := plan, pendingPlan := none, isolatedSwitch := false } s.demand rfl
      ⟨rfl, rfl, rfl, rfl⟩
  split
  · exact h.trans (chooseStep_settled _ _)
  · exact h.trans (chooseStep_settled _ _)

theorem beginRest_settled (s : State) : Settled s s.beginRest :=
  Settled.of_seq s _ _ rfl ⟨rfl, rfl, rfl, rfl⟩

theorem scanPlan_settled (s : State) : Settled s s.scanPlan := by
  unfold State.scanPlan
  dsimp only
  split
  · exact chooseStep_settled s _
  · split
    · exact planSwitch_settled s
    · split
      · exact chooseStep_settled s _
      · exact beginRest_settled s

theorem stepEnd_settled (s : State) : Settled s s.stepEnd := by
  unfold State.stepEnd
  split
  · exact Settled.refl s
  all_goals
    split
    · exact planSwitch_settled s
    · exact scanPlan_settled s

theorem restScan_settled (s : State) : Settled s s.restScan := by
  unfold State.restScan
  split
  · exact stepEnd_settled s
  · exact Settled.refl s

theorem restSwitch_settled (s : State) : Settled s s.restSwitch := by
  unfold State.restSwitch
  split
  · exact planSwitch_settled s
  · split
    · exact Settled.of_seq s { s.seq with switchKept := true } s.demand rfl ⟨rfl, rfl, rfl, rfl⟩
    · exact Settled.refl s

theorem holdEnded_settled (s : State) : Settled s s.holdEnded := by
  unfold State.holdEnded
  split
  · exact stepEnd_settled s
  · split
    · exact planSwitch_settled s
    · exact restScan_settled s

theorem actForce_settled (s : State) (n : Nat) : Settled s (s.actForce n) := by
  unfold State.actForce
  dsimp only
  have h : Settled s { s with seq := { s.seq with pendingForce := none, force := .forced, switchKept := false } } :=
    Settled.of_seq s { s.seq with pendingForce := none, force := .forced, switchKept := false } s.demand rfl ⟨rfl, rfl, rfl, rfl⟩
  split
  · exact h.trans (minStart_settled _)
  · exact h.trans (changeStage_settled _ _ _)

theorem extensionEvent_settled (s : State) : Settled s s.extensionEvent := by
  unfold State.extensionEvent
  split
  · exact Settled.of_seq s { s.seq with deadline := _ } s.demand rfl ⟨rfl, rfl, rfl, rfl⟩
  · exact Settled.refl s

theorem demandEvent_settled (s : State) (d : LineId) : Settled s (s.demandEvent d) := by
  unfold State.demandEvent
  split
  · dsimp only
    generalize s.demand.register ||| stagesBut (cfgLineStages s.cfg d) s.runningStage = register
    have h : Settled s { s with demand := { s.demand with register := register } } :=
      Settled.of_seq s s.seq { s.demand with register := register } rfl ⟨rfl, rfl, rfl, rfl⟩
    split
    · split
      · exact h.trans (extensionEvent_settled _)
      · exact h
    · split
      · exact (h.trans (extensionEvent_settled _)).trans (restScan_settled _)
      · exact h.trans (restScan_settled _)
  · exact Settled.refl s

theorem raiseLines_settled (s : State) (w : Half) : Settled s (s.raiseLines w) := by
  refine foldl_settled _ (fun t d => ?_) _ s
  split
  · exact demandEvent_settled t d
  · exact Settled.refl t

/-! ### The swap and settling -/

theorem swapTables_settled (s : State) : Settled s s.swapTables :=
  ⟨rfl, rfl, rfl, RingNoticed.refl _, rfl, rfl, Or.inr rfl, rfl, rfl, rfl, rfl, rfl, rfl, rfl, rfl, rfl, rfl, rfl,
    rfl, AlarmsGrown.refl _, rfl⟩

theorem swapCircuits_settled (s : State) : Settled s s.swapCircuits := by
  unfold State.swapCircuits
  dsimp only
  have h := foldl_settled (fun (t : State) (n : CircuitId) => t.alarmEvents (BitVec.ofNat 8 n.val) s.circuits[n].cleared.2)
    (fun t n => (alarmEvents_control t _ _).settled) circuitIds s
  generalize circuitIds.foldl
    (fun (t : State) (n : CircuitId) => t.alarmEvents (BitVec.ofNat 8 n.val) s.circuits[n].cleared.2) s = t at h ⊢
  exact h.trans (Settled.of_fields t t.seq t.demand t.groups t.fallback _ t.cable _ t.scanner.leakTest rfl
    ⟨rfl, rfl, rfl, rfl⟩)

theorem swapCores_settled (s : State) : Settled s s.swapCores := by
  unfold State.swapCores
  dsimp only
  have h := foldl_settled (fun (t : State) (n : CircuitId) =>
      t.alarmEvents (BitVec.ofNat 8 n.val) (s.cable.cores[n].state.alarm.toList.map (fun a => (false, a))))
    (fun t n => (alarmEvents_control t _ _).settled) circuitIds s
  generalize circuitIds.foldl (fun (t : State) (n : CircuitId) =>
    t.alarmEvents (BitVec.ofNat 8 n.val) (s.cable.cores[n].state.alarm.toList.map (fun a => (false, a)))) s = t at h ⊢
  exact h.trans (Settled.of_fields t t.seq t.demand t.groups t.fallback t.circuits _ t.drive.records none rfl
    ⟨rfl, rfl, rfl, rfl⟩)

theorem swapMode_settled (s : State) : Settled s s.swapMode := by
  unfold State.swapMode
  split
  · exact (enterStart_control s _).settled
  · exact (enterStart_control s _).settled
  · exact (enterStart_control s _).settled
  · dsimp only
    have h : Settled s s.showRed := (showAll_groupsOnly s .red .red).settled
    generalize s.showRed = t at h ⊢
    exact h.trans (Settled.of_fields t t.seq t.demand t.groups _ t.circuits t.cable t.drive.records t.scanner.leakTest rfl
      ⟨rfl, rfl, rfl, rfl⟩)
  · exact (showAll_groupsOnly s _ _).settled
  · split
    · exact (enterStart_control s _).settled
    · split
      · exact (shift_control s _ _).settled.trans (showAll_groupsOnly _ _ _).settled
      · exact (showAll_groupsOnly s _ _).settled

theorem swapEvidence_settled (s : State) : Settled s s.swapEvidence :=
  (Settled.of_fields s s.seq s.demand _ s.fallback s.circuits s.cable s.drive.records s.scanner.leakTest rfl
    ⟨rfl, rfl, rfl, rfl⟩).trans (dropEndedPairs_control _).settled

theorem swapConflicts_settled (s : State) : Settled s s.swapConflicts :=
  foldl_settled _ (fun t p => (conflictDetected_control t [p]).settled) _ s

theorem swap_settled (s : State) : Settled s s.swap := by
  unfold State.swap
  dsimp only
  refine Settled.trans ?_ (swapConflicts_settled _)
  refine Settled.trans ?_ (swapEvidence_settled _)
  refine Settled.trans ?_ (swapMode_settled _)
  refine Settled.trans ?_ (clear_control _ _ _).settled
  refine Settled.trans ?_ (refreshRed_control _).settled
  exact ((swapTables_settled s).trans (swapCircuits_settled _)).trans (swapCores_settled _)

theorem beginClearing_settled (s : State) : Settled s s.beginClearing :=
  (Settled.of_seq s { s.seq with transfer := .clearing, pendingForce := none } s.demand rfl ⟨rfl, rfl, rfl, rfl⟩).trans
    (clearToRed_groupsOnly _).settled

theorem activationPending_settled (s : State) : Settled s s.activationPending := by
  unfold State.activationPending
  dsimp only
  have h : Settled s { s with mgmt := { s.mgmt with activation := .pending } } :=
    ⟨rfl, rfl, rfl, RingNoticed.refl _, rfl, rfl, Or.inl rfl, rfl, rfl, rfl, rfl, rfl, rfl, rfl, rfl, rfl, rfl, rfl,
      rfl, AlarmsGrown.refl _, rfl⟩
  have ha : Settled s { s with
      mgmt := { s.mgmt with activation := .pending }, seq := { s.seq with transfer := .awaiting } } :=
    ⟨rfl, rfl, rfl, RingNoticed.refl _, rfl, rfl, Or.inl rfl, rfl, rfl, rfl, rfl, rfl, rfl, rfl, rfl, rfl, rfl, rfl,
      rfl, AlarmsGrown.refl _, rfl⟩
  split
  · split
    · exact h.trans (beginClearing_settled _)
    · exact h.trans (beginClearing_settled _)
    all_goals exact ha
  · exact h.trans (beginClearing_settled _)
  all_goals exact h

theorem activate_settled (s : State) : Settled s s.activate := by
  unfold State.activate
  split
  · exact Settled.refl s
  · split
    · exact swap_settled s
    · exact swap_settled s
    · exact swap_settled s
    all_goals
      split
      · exact swap_settled s
      · exact Settled.refl s

theorem runFailRed_settled (s : State) : Settled s s.runFailRed := by
  unfold State.runFailRed
  split
  · split
    · exact Settled.of_fields s s.seq s.demand s.groups { s.fallback with failRed := _ } s.circuits s.cable s.drive.records
        s.scanner.leakTest rfl ⟨rfl, rfl, rfl, rfl⟩
    · exact Settled.refl s
  · exact Settled.refl s
  · exact Settled.refl s

theorem settleOnce_settled (s : State) : Settled s s.settleOnce :=
  (((completeStage_settled s).trans (runFailRed_settled _)).trans (activate_settled _)).trans (applyLost_lamp _).settled

/-- What settling can touch. -/
theorem settle_settled (s : State) : Settled s s.settle :=
  ((settleOnce_settled s).trans (settleOnce_settled _)).trans (settleOnce_settled _)

/-- Settling does nothing when no stage change is in ENTER, no fail-red timer waits, no activation is PENDING and mains is
PRESENT. -/
theorem settle_eq_self (s : State) (h1 : s.seq.mode ≠ .run ∨ s.seq.step ≠ .enter) (h2 : s.fallback.failRed ≠ .waiting)
    (h3 : s.mgmt.activation = .none) (h4 : s.scanner.mains = .present) : s.settle = s := by
  have hc : s.completeStage = s := by
    unfold State.completeStage
    split
    · rename_i a b c; rcases h1 with h | h
      · exact absurd a h
      · exact absurd b h
    · rfl
  have hf : s.runFailRed = s := by
    unfold State.runFailRed
    split
    · rename_i a; exact absurd a h2
    · rfl
    · rfl
  have ha : s.activate = s := by simp [State.activate, h3]
  have hl : s.applyLost = s := by simp [State.applyLost, h4]
  have : s.settleOnce = s := by simp only [State.settleOnce, hc, hf, ha, hl]
  simp only [State.settle, this]

end Sys2Proof.Machine
end

