-- ==== Sys2Proof/Laws/Exec.lean ====
section
/-! SUPPORT. The frame of every command: its time passes, and out of reset it acts by one function of the state. -/

namespace Sys2Proof.Machine

/-- Out of reset a command acts on the state whose time has passed. -/
theorem live_next (dt : Nat) (f : State → State) (s : State) (h : s.phase = .notInReset) :
    live dt f s = .next (f (elapse dt s)) := by
  simp only [live, elapse_phase, h]

/-- In a reset only its time passes (R181). -/
theorem live_reset (dt : Nat) (f : State → State) (s : State) (h : s.phase ≠ .notInReset) :
    live dt f s = .next (elapse dt s) := by
  simp only [live, elapse_phase]
  split
  · rename_i e; exact absurd e h
  · rfl
  · rfl

/-- The three commands that also act in a reset. -/
def actsInReset : Instr → Bool
  | .powerOnReset _ => true
  | .resetEnd _ _ _ _ => true
  | .cabinetClockTick _ => true
  | _ => false

/-- Every other command acts through `live`. -/
theorem exec_live (c : Instr) (h : actsInReset c = false) : ∃ f : State → State, ∀ s, exec c s = live c.dt f s := by
  cases c <;> first
    | exact Bool.noConfusion h
    | exact ⟨_, fun s => by
        simp only [exec, Instr.dt]
        exact (rfl : live _ _ s = live _ _ s)⟩

end Sys2Proof.Machine
end

