-- ==== Sys2Proof/Laws/Answers.lean ====
section
/-! SUPPORT. The arrival of a good frame, stage by stage: what a command that hands it on does, what its counting leaves, and how a
management frame reaches its answer. -/

namespace Sys2Proof.Machine

open Sys2Proof.Safety

/-- What counting a good frame touches: the line and LINE_DOWN (R7). -/
theorem countGood_same (s : State) : s.countGood = { s with ring := s.countGood.ring, alarms := s.countGood.alarms } := by
  unfold State.countGood
  split
  · dsimp only
    split <;> rfl
  · rfl
  · rfl

/-- The state in which a good frame is classified, but for the ring and the alarms. -/
theorem received_same (dt : Nat) (s : State) :
    received dt s = { elapse dt s with ring := (received dt s).ring, alarms := (received dt s).alarms } :=
  countGood_same _

@[simp] theorem received_now (dt : Nat) (s : State) : (received dt s).now = s.now + dt := by rw [received_same]; rfl
@[simp] theorem received_resetEnd (dt : Nat) (s : State) : (received dt s).resetEnd = s.resetEnd := by rw [received_same]; rfl
@[simp] theorem received_phase (dt : Nat) (s : State) : (received dt s).phase = s.phase := by rw [received_same]; rfl
@[simp] theorem received_classifier (dt : Nat) (s : State) : (received dt s).classifier = s.classifier := by
  rw [received_same]; rfl
@[simp] theorem received_mgmt (dt : Nat) (s : State) : (received dt s).mgmt = s.mgmt := by rw [received_same]; rfl
@[simp] theorem received_nv (dt : Nat) (s : State) : (received dt s).nv = s.nv := by rw [received_same]; rfl
@[simp] theorem received_demand (dt : Nat) (s : State) : (received dt s).demand = s.demand := by rw [received_same]; rfl
@[simp] theorem received_seq (dt : Nat) (s : State) : (received dt s).seq = s.seq := by rw [received_same]; rfl
@[simp] theorem received_groups (dt : Nat) (s : State) : (received dt s).groups = s.groups := by rw [received_same]; rfl
@[simp] theorem received_drive (dt : Nat) (s : State) : (received dt s).drive = s.drive := by rw [received_same]; rfl
@[simp] theorem received_scanner (dt : Nat) (s : State) : (received dt s).scanner = s.scanner := by rw [received_same]; rfl
@[simp] theorem received_circuits (dt : Nat) (s : State) : (received dt s).circuits = s.circuits := by rw [received_same]; rfl
@[simp] theorem received_cable (dt : Nat) (s : State) : (received dt s).cable = s.cable := by rw [received_same]; rfl
@[simp] theorem received_fallback (dt : Nat) (s : State) : (received dt s).fallback = s.fallback := by rw [received_same]; rfl
@[simp] theorem received_pending (dt : Nat) (s : State) : (received dt s).pending = s.pending := by rw [received_same]; rfl
@[simp] theorem received_cfg (dt : Nat) (s : State) : (received dt s).cfg = s.cfg := by simp [State.cfg]
@[simp] theorem received_ownId (dt : Nat) (s : State) : (received dt s).ownId = s.ownId := by simp [State.ownId]
@[simp] theorem received_held (dt : Nat) (s : State) : (received dt s).held = s.held := by simp [State.held]
@[simp] theorem received_timeBase (dt : Nat) (s : State) : (received dt s).timeBase = (elapse dt s).timeBase := by
  simp [State.timeBase]
@[simp] theorem received_stamp (dt : Nat) (s : State) : (received dt s).stamp = (elapse dt s).stamp := by
  simp [State.stamp]

/-- A whole-frame command is the arrival of its frame. -/
theorem exec_frameOf (i : Instr) (f : Frame) (h : frameOf i = some f) (s : State) :
    exec i s = live i.dt (State.handOn f) s := by
  cases i <;> simp only [frameOf, Option.some.injEq, reduceCtorEq] at h <;> subst h <;> rfl

/-- A command that hands on a good frame: the frame meets the transit queue (R7, R15). -/
theorem exec_of_hands (i : Instr) (s : State) (f : Frame) (h : Hands i s f) :
    exec i s = .next ((received i.dt s).arrive f) := by
  rcases h with ⟨⟨hp, hl⟩, hf, hlen⟩ | ⟨dt, bytes, hp, rfl, hr, hok, hparse⟩
  · rw [exec_frameOf i f hf, live_next _ _ _ hp]
    simp only [State.handOn, elapse_ring, hlen, if_true]
    cases hs : s.ring.line.state
    · exact absurd hs hl
    · rfl
    · rfl
  · simp only [exec, execEndMarker]
    rw [live_next _ _ _ hp]
    simp only [State.endMarker, elapse_ring, hr, State.frameEnded, hok, hparse]
    rfl

/-- A management frame that reaches the J824 is answered (R25, R28). -/
theorem arrive_of_reaches (r : State) (f : Frame) (e : Env) (hk : f.kind = kindCall ∨ f.kind = kindLoad ∨ f.kind = kindPeek ∨ f.kind = kindEcho)
    (hd : f.dest = e.dest) (hs : f.src = e.src) (ht : f.tally = e.tally) (hf : f.flags = e.flags) (h : Reaches r e) :
    r.arrive f = (r.manage f).2.enqueue (r.manage f).1 := by
  obtain ⟨hroom, hsrc, htally, hdest, hopen⟩ := h
  have hm : r.isManagement f = true := by
    simp only [State.isManagement, hd, Bool.and_eq_true, Bool.or_eq_true, decide_eq_true_eq]
    refine ⟨?_, hdest⟩
    rcases hk with k | k | k | k <;> simp [k]
  have ho : f.isOpen = true := by
    simp only [Frame.isOpen, Frame.verdictField, hf, hopen, decide_true]
  have h1 : ¬ (f.src = r.ownId) := by rw [hs]; exact hsrc
  have h2 : ¬ (16 ≤ f.tally.toNat) := by rw [ht]; omega
  simp only [State.arrive, hroom, if_true, State.classify, h1, if_false, h2, hm, ho]

/-- A management command that reaches the J824 answers by `manage` (R25, R28). -/
theorem exec_of_reaches (i : Instr) (s : State) (e : Env) (kind : Byte) (p : List Byte) (hf : frameOf i = some (envFrame kind e p))
    (hk : kind = kindCall ∨ kind = kindLoad ∨ kind = kindPeek ∨ kind = kindEcho) (hr : Receiving s) (hp : p.length ≤ 48)
    (h : Reaches (received i.dt s) e) :
    exec i s = .next (((received i.dt s).manage (envFrame kind e p)).2.enqueue
      ((received i.dt s).manage (envFrame kind e p)).1) := by
  rw [exec_of_hands i s _ (Or.inl ⟨hr, hf, hp⟩), arrive_of_reaches _ _ e hk rfl rfl rfl rfl h]

end Sys2Proof.Machine
end

