-- ==== Sys2Proof/Laws/Validation.lean ====
section
/-! SUPPORT. Laws of validation: a configuration passes exactly when every item of every check passes, check by check. -/

namespace Sys2Proof.Machine

/-- Every group is listed. -/
@[simp] theorem mem_groupIds (g : GroupId) : g ∈ groupIds := by revert g; decide

/-- Every circuit is listed. -/
@[simp] theorem mem_circuitIds (n : CircuitId) : n ∈ circuitIds := by revert n; decide

/-- Every demand line is listed. -/
@[simp] theorem mem_lineIds (d : LineId) : d ∈ lineIds := by revert d; decide

/-- Every ordered pair is listed. -/
@[simp] theorem mem_orderedPairs (i j : GroupId) : (i, j) ∈ orderedPairs := by simp [orderedPairs]

/-- The unordered pairs are those with the lower group first. -/
@[simp] theorem mem_unorderedPairs (i j : GroupId) : (i, j) ∈ unorderedPairs ↔ i ≤ j := by simp [unorderedPairs]

/-- An item passes when what makes it fail is false. -/
@[simp] theorem item_eq_none (fails : Bool) (code subject : Nat) : item fails code subject = none ↔ fails = false := by
  cases fails <;> simp [item]

/-- The largest intergreen is at most a bound when the intergreen of every conflicting pair is. -/
theorem largestIntergreen_le (c : Cfg) (n : Nat) :
    largestIntergreen c ≤ n ↔ ∀ i j : GroupId, cfgConflicts c i j = true → cfgIntergreen c i j ≤ n := by
  have fold : ∀ (l : List (GroupId × GroupId)) (m : Nat),
      l.foldl (fun m p => if cfgConflicts c p.1 p.2 then max m (cfgIntergreen c p.1 p.2) else m) m ≤ n ↔
        m ≤ n ∧ ∀ p ∈ l, cfgConflicts c p.1 p.2 = true → cfgIntergreen c p.1 p.2 ≤ n := by
    intro l
    induction l with
    | nil => simp
    | cons p l ih =>
      intro m
      by_cases h : cfgConflicts c p.1 p.2 = true <;>
        simp only [List.foldl_cons, h, if_true, if_false, ih, List.mem_cons, forall_eq_or_imp, Nat.max_le, and_assoc, true_implies,
          false_implies, true_and, Bool.false_eq_true]
  rw [largestIntergreen, fold]
  exact ⟨fun h i j => h.2 (i, j) (mem_orderedPairs i j), fun h => ⟨Nat.zero_le n, fun p _ => h p.1 p.2⟩⟩

/-- Validation passes exactly when every item of checks 1 to 9 passes (R61). -/
theorem validate_eq_none (m : Memory) :
    let c : Cfg := some m
    validate m = none ↔
      (∀ g, ∀ x ∈ checkGroup c g, x = none) ∧ (∀ i j : GroupId, i ≤ j → checkPair c i j = none) ∧
      (∀ i j, checkIntergreen c i j = none) ∧ (∀ t, t < 16 → ∀ x ∈ checkStage c t, x = none) ∧
      (∀ x ∈ checkGeneral c, x = none) ∧ (∀ n, checkCircuitOnce (lampBytes c) n = none) ∧ (∀ g, checkLampGroup c g = none) ∧
      (∀ n, checkLimits c n = none) ∧ (∀ n, checkCore c n = none) ∧ (∀ p, p < 4 → ∀ x ∈ checkPlan c p, x = none) ∧
      checkIsolated c = none ∧ (∀ e, e < 16 → checkEntry c e = none) ∧ (∀ a, a < 4 → checkAlias c a = none) ∧
      (∀ n, checkLine c n = none) := by
  have passes : ∀ l : List (Option CheckFailure), l.findSome? id = none ↔ ∀ x ∈ l, x = none := by
    simp [List.findSome?_eq_none_iff]
  have append : ∀ l k : List (Option CheckFailure), (∀ x ∈ l ++ k, x = none) ↔ (∀ x ∈ l, x = none) ∧ ∀ x ∈ k, x = none :=
    fun l k => List.forall_mem_append
  simp only [validate, allChecks, passes, append, and_assoc, List.mem_flatMap, List.mem_map, List.mem_range, List.mem_singleton,
    forall_exists_index, and_imp, forall_apply_eq_imp_iff₂, forall_eq, Prod.forall, mem_groupIds, mem_circuitIds, mem_lineIds,
    mem_orderedPairs, mem_unorderedPairs, forall_const, forall_apply_eq_imp_iff]
  refine and_congr ⟨fun h g x => h x g, fun h x g => h g x⟩ (and_congr ⟨fun h i j l => h _ i j l rfl, fun h x i j l e => e ▸ h i j l⟩
    (and_congr ⟨fun h i j => h _ i j rfl, fun h x i j e => e ▸ h i j⟩ (and_congr ⟨fun h k l x => h x k l, fun h x k l => h k l x⟩
      (and_congr Iff.rfl (and_congr Iff.rfl (and_congr Iff.rfl (and_congr Iff.rfl (and_congr Iff.rfl (and_congr ?_ Iff.rfl)))))))))
  exact ⟨fun h k l x => h x k l, fun h x k l => h k l x⟩

end Sys2Proof.Machine
end

