-- ==== Sys2Proof/Laws/Derived.lean ====
section
/-! SUPPORT. What each derived value is (log 12): the lamp map, commands and targets, green evidence, the stall timer's group, the running
stage, the held-extension condition, and what addresses and matches a frame. -/

namespace Sys2Proof.Machine

/-! ### Lamp drive -/

theorem mem_circuitOfByte (b : Byte) (n : CircuitId) : n ∈ (circuitOfByte b).toList ↔ b.toNat = n.val := by
  unfold circuitOfByte
  split
  · simp [Fin.ext_iff, eq_comm]
  · simp; omega

/-- A circuit is an X circuit of a group when one of the two bytes of that place of the lamp map names it. -/
theorem mem_cfgLampCircuits (c : Cfg) (g : GroupId) (a : LampAspect) (n : CircuitId) :
    n ∈ cfgLampCircuits c g a ↔ c ≠ none ∧ ∃ i, i < 2 ∧ (cfgByte c 8 (8 * g.val + 2 * a.index + i)).toNat = n.val := by
  cases c with
  | none => simp [cfgLampCircuits, cfgEmpty]
  | some m =>
    simp only [cfgLampCircuits, cfgEmpty, Option.isNone_some, Bool.false_eq_true, if_false, List.mem_append, mem_circuitOfByte,
      ne_eq, reduceCtorEq, not_false_eq_true, true_and]
    constructor
    · rintro (h | h)
      · exact ⟨0, by omega, by simpa using h⟩
      · exact ⟨1, by omega, h⟩
    · rintro ⟨i, hi, h⟩
      obtain rfl | rfl : i = 0 ∨ i = 1 := by omega
      · exact Or.inl (by simpa using h)
      · exact Or.inr h

@[simp] theorem mem_lampPlaces (g : GroupId) (a : LampAspect) : (g, a) ∈ lampPlaces := by
  revert g; cases a <;> decide

theorem cfgAssignment_eq_none (c : Cfg) (n : CircuitId) : cfgAssignment c n = none ↔ ∀ g a, n ∉ cfgLampCircuits c g a := by
  simp only [cfgAssignment, List.find?_eq_none, Prod.forall, List.contains_iff_mem]
  exact ⟨fun h g a => h g a (mem_lampPlaces g a), fun h g a _ => h g a⟩

/-- A circuit that stands in one place of the lamp map is assigned to it. -/
theorem cfgAssignment_eq_some {c : Cfg} {n : CircuitId} {g : GroupId} {a : LampAspect} (h : n ∈ cfgLampCircuits c g a)
    (one : ∀ k b, n ∈ cfgLampCircuits c k b → k = g ∧ b = a) : cfgAssignment c n = some (g, a) := by
  cases e : cfgAssignment c n with
  | none => exact absurd h ((cfgAssignment_eq_none c n).mp e g a)
  | some p =>
    have := List.find?_some e
    simp only [List.contains_iff_mem] at this
    obtain ⟨h1, h2⟩ := one p.1 p.2 this
    rw [← h1, ← h2]

theorem commanded_of_lockout {s : State} {n : CircuitId} (h : s.drive.records[n].lockout = true) : s.commanded n = .off := by
  rw [State.commanded, if_pos h]

theorem commanded_of_unassigned {s : State} {n : CircuitId} (h : ∀ g a, n ∉ cfgLampCircuits s.cfg g a) : s.commanded n = .off := by
  simp [State.commanded, (cfgAssignment_eq_none s.cfg n).mpr h]

theorem commanded_of_assigned {s : State} {n : CircuitId} {g : GroupId} {a : LampAspect} (free : s.drive.records[n].lockout = false)
    (h : n ∈ cfgLampCircuits s.cfg g a) (one : ∀ k b, n ∈ cfgLampCircuits s.cfg k b → k = g ∧ b = a) :
    s.commanded n = lampCommand s.groups[g].aspect a := by
  rw [State.commanded, if_neg (by rw [free]; decide), cfgAssignment_eq_some h one]

theorem target_iff (s : State) (n : CircuitId) :
    s.target n = true ↔
      s.drive.driveEn = true ∧ (s.commanded n = .on ∨ s.commanded n = .flash ∧ s.drive.flashOn = true) := by
  unfold State.target
  cases s.commanded n <;> simp

/-! ### Evidence, stall, running stage, held extension -/

theorem evidenceOf_iff (s : State) (g : GroupId) :
    s.evidenceOf g = true ↔ s.groups[g].kind ≠ .unused ∧ ∃ n ∈ cfgLampCircuits s.cfg g .green,
      s.drive.records[n].applied = true ∨ s.cable.cores[n].state = .crossFeed := by
  simp [State.evidenceOf, State.used]

theorem stalled_iff (x : Group) : x.stalled = true ↔ x.withheld = true ∧ x.gain ≠ none := by
  simp [Group.stalled, Option.isSome_iff_ne_none]

/-- A fold that keeps a best candidate finds none exactly when no element is one. -/
theorem foldl_eq_none {α β : Type} {f : Option β → α → Option β} {p : α → Prop} (h : ∀ b x, f b x = none ↔ b = none ∧ p x)
    (l : List α) (b : Option β) : l.foldl f b = none ↔ b = none ∧ ∀ x ∈ l, p x := by
  induction l generalizing b with
  | nil => simp
  | cons x l ih => rw [List.foldl_cons, ih, h, List.forall_mem_cons, and_assoc]

/-- No group is withheld longest exactly when none is withheld with a gain request and a withheld-since. -/
theorem longestWithheld_eq_none (s : State) :
    s.longestWithheld = none ↔
      ∀ g : GroupId, s.groups[g].withheld = false ∨ s.groups[g].gain = none ∨ s.groups[g].withheldSince = none := by
  unfold State.longestWithheld
  rw [foldl_eq_none (p := fun g => s.groups[g].withheld = false ∨ s.groups[g].gain = none ∨ s.groups[g].withheldSince = none)]
  · simp
  · intro b g
    generalize s.groups[g] = x
    obtain ⟨_, _, _, gain, _, withheld, since, _, _⟩ := x
    cases gain <;> cases withheld <;> cases since <;> cases b <;> simp [Group.stalled] <;> split <;> simp

theorem runningStage_of_running {s : State} (h : s.seq.mode = .run) (k : s.seq.step = .min ∨ s.seq.step = .extend) :
    s.runningStage = s.seq.stage := by
  simp [State.runningStage, h, k]

theorem runningStage_of_not {s : State} (h : s.seq.mode ≠ .run ∨ s.seq.step ≠ .min ∧ s.seq.step ≠ .extend) :
    s.runningStage = none := by
  rcases h with h | h <;> simp [State.runningStage, h]

theorem heldCondition_iff (s : State) (k : ContactId) :
    s.heldCondition k = true ↔
      cfgLineEnabled s.cfg (contactLine k) = true ∧ cfgLineExtends s.cfg (contactLine k) = true ∧
        s.demand.contacts[k].closed = true ∧ s.seq.mode = .run ∧ s.seq.step = .extend ∧
        ∃ stage, s.seq.stage = some stage ∧ setHas (cfgLineStages s.cfg (contactLine k)) stage = true := by
  unfold State.heldCondition
  cases s.seq.stage <;> simp [and_assoc]

/-! ### Frames -/

/-- An identity is an active alias when one of the four entries in use holds it. -/
theorem cfgIsAlias_iff (c : Cfg) (ident : Byte) :
    cfgIsAlias c ident = true ↔ ∃ a, a < 4 ∧ cfgAliasByte c a 0 = 1 ∧ cfgAliasByte c a 1 = ident := by
  simp only [cfgIsAlias, cfgAliasesOf, Bool.not_eq_true', List.isEmpty_eq_false_iff_exists_mem, List.mem_filter, Bool.and_eq_true,
    decide_eq_true_eq]
  refine exists_congr fun a => and_congr_left fun _ => ?_
  simp only [List.mem_cons, List.not_mem_nil, or_false]
  omega

/-- The J824's own dests: its identity and its active aliases. -/
theorem destIsOwn_iff (s : State) (dest : Byte) :
    s.destIsOwn dest = true ↔ dest = 0x40 + s.mgmt.ident.setWidth 8 ∨
      ∃ a, a < 4 ∧ cfgAliasByte s.cfg a 0 = 1 ∧ cfgAliasByte s.cfg a 1 = dest := by
  simp only [State.destIsOwn, Bool.or_eq_true, decide_eq_true_eq, cfgIsAlias_iff]
  rfl

theorem isManagement_iff (s : State) (f : Frame) :
    s.isManagement f = true ↔
      (f.kind = 0x01 ∨ f.kind = 0x03 ∨ f.kind = 0x04 ∨ f.kind = 0x06) ∧ (s.destIsOwn f.dest = true ∨ f.dest = 0xFF) := by
  simp only [State.isManagement, Bool.and_eq_true, Bool.or_eq_true, decide_eq_true_eq, or_assoc]
  rfl

/-- An entry of a dest class that the manual defines matches a frame. -/
theorem entryMatches_iff (s : State) (f : Frame) (e : Nat) (h : (cfgEntryByte s.cfg e 3).toNat ≤ 3) :
    s.entryMatches f e = true ↔
      (cfgEntryByte s.cfg e 0).getLsbD 0 = true ∧
      ((cfgEntryByte s.cfg e 0).getLsbD 1 = true ∨ cfgEntryByte s.cfg e 1 = f.kind) ∧
      ((cfgEntryByte s.cfg e 0).getLsbD 2 = true ∨ cfgEntryByte s.cfg e 2 = f.src) ∧
      ((cfgEntryByte s.cfg e 3).toNat = 0 → s.destIsOwn f.dest = true) ∧
      ((cfgEntryByte s.cfg e 3).toNat = 1 → f.dest = 0xFF) ∧
      ((cfgEntryByte s.cfg e 3).toNat = 2 → s.destIsOwn f.dest = false ∧ f.dest ≠ 0xFF) := by
  unfold State.entryMatches
  generalize cfgEntryByte s.cfg e 3 = c at *
  have : c = 0 ∨ c = 1 ∨ c = 2 ∨ c = 3 := by
    have key : ∀ c : Byte, c.toNat ≤ 3 → c = 0 ∨ c = 1 ∨ c = 2 ∨ c = 3 := by decide
    exact key c h
  rcases this with rfl | rfl | rfl | rfl <;>
    simp only [Bool.and_eq_true, Bool.or_eq_true, decide_eq_true_eq, and_assoc] <;> simp [show broadcast = 0xFF from rfl]

end Sys2Proof.Machine
end

