-- ==== Sys2Proof/Laws/Swap.lean ====
section
/-! SUPPORT. What settling does when something follows: a stage change completes, or a PENDING activation is carried out. The swap leaves no
red LOST, no activation PENDING, the junction out of RUN and no fail-red timer waiting, so that nothing follows it. -/

namespace Sys2Proof.Machine

open Sys2Proof.Safety

/-! ### Junction mode and fallback records kept -/

/-- The junction mode and the fallback records are kept. -/
def ModeKept (s t : State) : Prop := t.seq.mode = s.seq.mode ∧ t.fallback = s.fallback

theorem ModeKept.refl (s : State) : ModeKept s s := ⟨rfl, rfl⟩

theorem ModeKept.trans {s t u : State} (h : ModeKept s t) (k : ModeKept t u) : ModeKept s u :=
  ⟨k.1.trans h.1, k.2.trans h.2⟩

theorem GroupsOnly.modeKept {s t : State} (h : GroupsOnly s t) : ModeKept s t := by rw [h.same]; exact ⟨rfl, rfl⟩

theorem clear_modeKept (s : State) (c : AlarmCode) (n : Byte) : ModeKept s (s.clear c n) := ⟨rfl, rfl⟩

theorem followFallback_modeKept (s : State) (b : Bool) : ModeKept s (s.followFallback b) := by
  unfold State.followFallback
  split <;> exact ⟨rfl, rfl⟩

theorem alarmEvents_modeKept (s : State) (n : Byte) (l : List AlarmEvent) : ModeKept s (s.alarmEvents n l) := by
  refine foldl_keeps (ModeKept s) _ (fun t a ht => ?_) l s (ModeKept.refl s)
  split <;> exact ht.trans ⟨rfl, rfl⟩

theorem foldl_alarmEvents_modeKept (f : CircuitId → List AlarmEvent) (l : List CircuitId) (s : State) :
    ModeKept s (l.foldl (fun t n => t.alarmEvents (BitVec.ofNat 8 n.val) (f n)) s) :=
  foldl_keeps (ModeKept s) _ (fun _ n ht => ht.trans (alarmEvents_modeKept _ _ (f n))) l s (ModeKept.refl s)

theorem foldl_alarmEvents_control (f : CircuitId → List AlarmEvent) (l : List CircuitId) (s : State) :
    Control s (l.foldl (fun t n => t.alarmEvents (BitVec.ofNat 8 n.val) (f n)) s) :=
  foldl_control _ (fun t n => alarmEvents_control t _ (f n)) l s

/-- A change of mode sets the mode and the records it is given. -/
theorem shift_mode (s : State) (m : JunctionMode) (f : Fallback) :
    (s.shift m f).seq.mode = m ∧ (s.shift m f).fallback = f := followFallback_modeKept _ _

theorem shift_groups (s : State) (m : JunctionMode) (f : Fallback) : (s.shift m f).groups = s.groups := by
  unfold State.shift State.followFallback
  split <;> rfl

theorem toFlash_mode (s : State) (f : Fallback) :
    (s.toFlash f).seq.mode = .flash ∧ (s.toFlash f).fallback = { f with failRed := .none } := shift_mode _ _ _

theorem toDark_mode (s : State) (f : Fallback) :
    (s.toDark f).seq.mode = .dark ∧ (s.toDark f).fallback = { f with failRed := .none } := shift_mode _ _ _

/-! ### Red status -/

theorem Control.redStatusOf {s t : State} (h : Control s t) (g : GroupId) : t.redStatusOf g = s.redStatusOf g := by
  simp only [State.redStatusOf, State.used, State.cfg, State.redGood, State.redGone, h.mgmt, h.circuits, h.drive, h.kind]
  rfl

theorem controlled_redStatus (s : State) (c : Cause) (n : Byte) (i : GroupId) :
    (s.controlled c n).groups[i].redStatus = s.groups[i].redStatus := by
  have hl : s.leaveNormal.groups = s.groups := by unfold State.leaveNormal; split <;> rfl
  unfold State.controlled
  dsimp only
  split
  · rw [(clearToRed_groupsOnly _).redStatus, shift_groups, hl]
  · split
    · rfl
    · have e : (s.shift s.seq.mode (s.written c n true)).groups = s.groups := shift_groups _ _ _
      simp only [e]

theorem setRedStatus_redStatus (s : State) (g : GroupId) (v : RedStatus) (i : GroupId) :
    (s.setRedStatus g v).groups[i].redStatus = if g = i then v else s.groups[i].redStatus := by
  have h : ((s.setGroup g { s.groups[g] with redStatus := v }).recheckAround g).groups[i].redStatus =
      if g = i then v else s.groups[i].redStatus := by
    rw [(recheckAround_groupsOnly _ g).redStatus, getElem_setGroup]
    split <;> rfl
  unfold State.setRedStatus
  dsimp only
  split
  · exact h
  · exact h
  · exact h
  · split
    · rw [controlled_redStatus]; exact h
    · exact h
  · split
    · rw [controlled_redStatus]; exact h
    · exact h
  all_goals exact h

/-- After a refresh every red status is what the circuits give (R137). -/
theorem refreshRed_redStatus (s : State) (i : GroupId) : s.refreshRed.groups[i].redStatus = s.redStatusOf i := by
  have key : ∀ (l : List GroupId) (t : State), (∀ g, t.redStatusOf g = s.redStatusOf g) →
      (∀ g, g ∉ l → t.groups[g].redStatus = s.redStatusOf g) →
      (l.foldl (fun u g => if u.groups[g].redStatus = u.redStatusOf g then u else u.setRedStatus g (u.redStatusOf g))
        t).groups[i].redStatus = s.redStatusOf i := by
    intro l
    induction l with
    | nil => intro t h1 h2; exact h2 i (by simp)
    | cons a l ih =>
      intro t h1 h2
      rw [List.foldl_cons]
      apply ih
      · intro g
        split
        · exact h1 g
        · rw [(setRedStatus_control t a _).redStatusOf]; exact h1 g
      · intro g hg
        split
        · rename_i h
          by_cases e : g = a
          · subst e; rw [h, h1]
          · exact h2 g (by simp [e, hg])
        · rw [setRedStatus_redStatus]
          split
          · rename_i e; subst e; exact h1 _
          · rename_i e; exact h2 g (by simp [hg]; exact fun x => e x.symm)
  exact key groupIds s (fun _ => rfl) (fun g hg => absurd (mem_groupIds g) hg)

theorem setRedStatus_modeKept (s : State) (g : GroupId) (v : RedStatus) (hv : v ≠ .lost) :
    ModeKept s (s.setRedStatus g v) := by
  have h : ModeKept s ((s.setGroup g { s.groups[g] with redStatus := v }).recheckAround g) :=
    (recheckAround_groupsOnly (s.setGroup g { s.groups[g] with redStatus := v }) g).modeKept
  unfold State.setRedStatus
  dsimp only
  split <;> first | exact h | exact h.trans (clear_modeKept _ _ _) | simp at hv

/-- When no group counts as LOST, a refresh of the red status brings no fallback. -/
theorem refreshRed_modeKept (s : State) (h : ∀ g, s.redStatusOf g ≠ .lost) : ModeKept s s.refreshRed := by
  have : ModeKept s s.refreshRed ∧ ∀ g, s.refreshRed.redStatusOf g ≠ .lost := by
    refine foldl_keeps (fun t => ModeKept s t ∧ ∀ g, t.redStatusOf g ≠ .lost) _ (fun t g ht => ?_) _ s ⟨ModeKept.refl s, h⟩
    split
    · exact ht
    · exact ⟨ht.1.trans (setRedStatus_modeKept t g _ (ht.2 g)),
        fun i => by rw [(setRedStatus_control t g _).redStatusOf]; exact ht.2 i⟩
  exact this.1

/-! ### The swap -/

/-- With no red LOST, an entry to START stays in START (R102, R139). -/
theorem enterStart_mode (s : State) (f : Fallback) (h : ∀ g : GroupId, s.groups[g].redStatus ≠ .lost) :
    (s.enterStart f).seq.mode = .start ∧ (s.enterStart f).fallback = { f with failRed := .none } := by
  have hn : ∀ u : State, (∀ g : GroupId, u.groups[g].redStatus ≠ .lost) → u.redLossAtStart = u := by
    intro u hu
    unfold State.redLossAtStart
    split
    · exact foldl_keeps (fun t => t = u) _ (fun t g ht => by rw [ht, if_neg (hu g)]) _ u rfl
    · rfl
  unfold State.enterStart
  dsimp only
  rw [hn]
  · exact shift_mode _ _ _
  · intro g
    show ((s.endNormal.shift .start _).showAll .red .red).groups[g].redStatus ≠ _
    rw [(showAll_groupsOnly _ _ _).redStatus]
    simp only [shift_groups]
    exact h g

theorem swapCircuits_fresh (s : State) (n : CircuitId) :
    (s.swapCircuits.circuits[n].state = .unproven ∨ s.swapCircuits.circuits[n].state = .disabled) ∧
      s.swapCircuits.drive.records[n].lockout = false := by
  unfold State.swapCircuits
  dsimp only
  generalize circuitIds.foldl _ s = w
  constructor
  · simp only [Fin.getElem_fin, Vector.getElem_ofFn, ProvingRecord.fresh]
    split <;> simp
  · simp

theorem swapCircuits_keeps (s : State) : ModeKept s s.swapCircuits ∧ s.swapCircuits.mgmt = s.mgmt := by
  unfold State.swapCircuits
  dsimp only
  have h : ModeKept s (circuitIds.foldl (fun (t : State) (n : CircuitId) =>
      t.alarmEvents (BitVec.ofNat 8 n.val) s.circuits[n].cleared.2) s) :=
    foldl_alarmEvents_modeKept _ circuitIds s
  have k : Control s (circuitIds.foldl (fun (t : State) (n : CircuitId) =>
      t.alarmEvents (BitVec.ofNat 8 n.val) s.circuits[n].cleared.2) s) :=
    foldl_alarmEvents_control _ circuitIds s
  generalize circuitIds.foldl (fun (t : State) (n : CircuitId) =>
    t.alarmEvents (BitVec.ofNat 8 n.val) s.circuits[n].cleared.2) s = w at h k ⊢
  exact ⟨⟨h.1, h.2⟩, k.mgmt⟩

theorem swapCores_keeps (s : State) :
    ModeKept s s.swapCores ∧ s.swapCores.mgmt = s.mgmt ∧ s.swapCores.circuits = s.circuits ∧ s.swapCores.drive = s.drive := by
  unfold State.swapCores
  dsimp only
  have h : ModeKept s (circuitIds.foldl (fun (t : State) (n : CircuitId) =>
    t.alarmEvents (BitVec.ofNat 8 n.val) (s.cable.cores[n].state.alarm.toList.map (fun a => (false, a)))) s) := foldl_alarmEvents_modeKept _ circuitIds s
  have k : Control s (circuitIds.foldl (fun (t : State) (n : CircuitId) =>
    t.alarmEvents (BitVec.ofNat 8 n.val) (s.cable.cores[n].state.alarm.toList.map (fun a => (false, a)))) s) := foldl_alarmEvents_control _ circuitIds s
  generalize circuitIds.foldl (fun (t : State) (n : CircuitId) =>
    t.alarmEvents (BitVec.ofNat 8 n.val) (s.cable.cores[n].state.alarm.toList.map (fun a => (false, a)))) s = w at h k ⊢
  exact ⟨⟨h.1, h.2⟩, k.mgmt, k.circuits, k.drive⟩

/-- After every circuit is UNPROVEN or DISABLED, no group counts as LOST (R137). -/
theorem not_lost_of_fresh (s : State) (h : ∀ n : CircuitId, s.redGone n = false) (g : GroupId) : s.redStatusOf g ≠ .lost := by
  intro hl
  unfold State.redStatusOf at hl
  dsimp only at hl
  simp only [h] at hl
  split at hl
  · simp at hl
  · split at hl
    · simp at hl
    · split at hl
      · cases hx : cfgLampCircuits s.cfg g .red <;> simp_all
      · simp at hl

/-- The state of the swap before its mode: mode and fallback records as before, no red LOST, the activation NONE. -/
theorem swap_cleared (s : State) :
    let u := (s.swapTables.swapCircuits.swapCores.refreshRed).clear .configEmpty 255
    ModeKept s u ∧ (∀ g : GroupId, u.groups[g].redStatus ≠ .lost) ∧ u.mgmt.activation = .none := by
  dsimp only
  have a := swapCircuits_keeps s.swapTables
  have b := swapCores_keeps s.swapTables.swapCircuits
  have hf := swapCircuits_fresh s.swapTables
  have hgone : ∀ n : CircuitId, s.swapTables.swapCircuits.swapCores.redGone n = false := by
    intro n
    simp only [State.redGone, b.2.2.1, b.2.2.2]
    rcases (hf n).1 with e | e <;> rw [e, (hf n).2] <;> rfl
  have hm : ModeKept s s.swapTables.swapCircuits.swapCores :=
    (ModeKept.trans (t := s.swapTables) ⟨rfl, rfl⟩ a.1).trans b.1
  have hg : s.swapTables.swapCircuits.swapCores.mgmt.activation = .none := by rw [b.2.1, a.2]; rfl
  generalize s.swapTables.swapCircuits.swapCores = u at hgone hm hg
  have hl := not_lost_of_fresh u hgone
  have hr : ∀ g : GroupId, u.refreshRed.groups[g].redStatus ≠ .lost := fun g => by rw [refreshRed_redStatus]; exact hl g
  have hv := hm.trans (refreshRed_modeKept u hl)
  have ha : u.refreshRed.mgmt.activation = .none := by rw [(refreshRed_control u).mgmt]; exact hg
  generalize u.refreshRed = v at hr hv ha
  exact ⟨hv.trans (clear_modeKept v _ _), hr, ha⟩

theorem swapMode_mgmt (s : State) : s.swapMode.mgmt = s.mgmt := by
  unfold State.swapMode
  split
  · exact (enterStart_control _ _).mgmt
  · exact (enterStart_control _ _).mgmt
  · exact (enterStart_control _ _).mgmt
  · exact (showAll_groupsOnly s .red .red).control.mgmt
  · exact (showAll_groupsOnly s _ _).control.mgmt
  · split
    · exact (enterStart_control _ _).mgmt
    · split
      · exact ((shift_control _ _ _).trans (showAll_groupsOnly _ _ _).control).mgmt
      · exact (showAll_groupsOnly s _ _).control.mgmt

/-- The mode of the swap is not RUN, and its fail-red timer does not wait unless it waited outside FAIL_RED (R72). -/
theorem swapMode_mode (s : State) (h : ∀ g : GroupId, s.groups[g].redStatus ≠ .lost) :
    s.swapMode.seq.mode ≠ .run ∧
      (s.fallback.failRed ≠ .waiting ∨ s.seq.mode = .failRed → s.swapMode.fallback.failRed ≠ .waiting) := by
  unfold State.swapMode
  split
  · rw [(enterStart_mode s _ h).1, (enterStart_mode s _ h).2]; simp
  · rw [(enterStart_mode s _ h).1, (enterStart_mode s _ h).2]; simp
  · rw [(enterStart_mode s _ h).1, (enterStart_mode s _ h).2]; simp
  · rename_i e
    have : s.showRed.seq.mode = s.seq.mode := rfl
    simp [this, e]
  · rename_i e
    have h1 : s.showFlash.seq.mode = s.seq.mode := rfl
    have h2 : s.showFlash.fallback = s.fallback := rfl
    simp [h1, h2, e]
  · rename_i e
    split
    · rw [(enterStart_mode s _ h).1, (enterStart_mode s _ h).2]; simp
    · split
      · have h1 : ((s.shift .dark (s.causeOnly .driveOff)).showDark).seq.mode = .dark := (shift_mode _ _ _).1
        have h2 : ((s.shift .dark (s.causeOnly .driveOff)).showDark).fallback = s.causeOnly .driveOff := (shift_mode _ _ _).2
        rw [h1, h2]
        simp [State.causeOnly, State.written, e]
      · have h1 : s.showDark.seq.mode = s.seq.mode := rfl
        have h2 : s.showDark.fallback = s.fallback := rfl
        simp [h1, h2, e]

/-- A conflict leaves the junction out of RUN and starts no waiting fail-red timer (R159). -/
theorem conflictDetected_mode (s : State) (p : Byte) :
    (s.conflictDetected [p]).seq.mode ≠ .run ∧
      (s.fallback.failRed ≠ .waiting → (s.conflictDetected [p]).fallback.failRed ≠ .waiting) := by
  unfold State.conflictDetected
  dsimp only
  split
  · rw [(shift_mode _ _ _).1, (shift_mode _ _ _).2]; exact ⟨by simp, fun h => h⟩
  · split
    · rw [(toDark_mode _ _).1, (toDark_mode _ _).2]; simp
    · rw [(shift_mode _ _ _).1, (shift_mode _ _ _).2]; exact ⟨by simp, fun h => h⟩
  all_goals
    split
    · rw [(toDark_mode _ _).1, (toDark_mode _ _).2]; simp
    · rw [(toFlash_mode _ _).1, (toFlash_mode _ _).2]; simp

/-- What the swap leaves: the activation NONE, the junction out of RUN, mains as it was, and no fail-red timer waiting unless it waited
outside FAIL_RED (R69, R72). -/
theorem swap_leaves (s : State) :
    s.swap.mgmt.activation = .none ∧ s.swap.seq.mode ≠ .run ∧ s.swap.scanner.mains = s.scanner.mains ∧
      (s.fallback.failRed ≠ .waiting ∨ s.seq.mode = .failRed → s.swap.fallback.failRed ≠ .waiting) := by
  refine ⟨?_, ?_, (swap_settled s).mains, ?_⟩ <;> unfold State.swap <;> dsimp only <;>
    have h := swap_cleared s <;> dsimp only at h <;>
    generalize (s.swapTables.swapCircuits.swapCores.refreshRed).clear .configEmpty 255 = u at h ⊢ <;>
    have k := swapMode_mode u h.2.1
  · have e : u.swapMode.swapEvidence.swapConflicts.mgmt = u.swapMode.swapEvidence.mgmt :=
      (foldl_control _ (fun t p => conflictDetected_control t [p]) _ _).mgmt
    rw [e]
    show u.swapMode.mgmt.activation = _
    rw [swapMode_mgmt]
    exact h.2.2
  · exact foldl_keeps (fun t : State => t.seq.mode ≠ .run) _ (fun t p _ => (conflictDetected_mode t p).1) _
      u.swapMode.swapEvidence k.1
  · intro hw
    rw [← h.1.1, ← h.1.2] at hw
    exact foldl_keeps (fun t : State => t.fallback.failRed ≠ .waiting) _ (fun t p ht => (conflictDetected_mode t p).2 ht) _
      u.swapMode.swapEvidence (k.2 hw)

/-! ### Settling -/

theorem changeComplete_iff (s : State) (n : Nat) : s.changeComplete n = true ↔ StageComplete s n := by
  simp only [State.changeComplete, List.all_eq_true, StageComplete]
  constructor
  · intro h g
    have := h g (mem_groupIds g)
    cases hc : cfgInStage s.cfg n g <;> simp_all
  · intro h g _
    have := h g
    cases hc : cfgInStage s.cfg n g <;> simp_all

theorem allUsedRed_iff (s : State) :
    s.allUsedRed = true ↔ ∀ g : GroupId, s.groups[g].kind ≠ .unused → s.groups[g].aspect = .red := by
  simp only [State.allUsedRed, State.used, List.all_eq_true]
  constructor
  · intro h g
    have := h g (mem_groupIds g)
    simpa [Decidable.or_iff_not_imp_left] using this
  · intro h g _
    simpa [Decidable.or_iff_not_imp_left] using h g

theorem allRedOrDark_iff (s : State) :
    s.allRedOrDark = true ↔ ∀ g : GroupId, s.groups[g].aspect = .red ∨ s.groups[g].aspect = .dark := by
  simp only [State.allRedOrDark, List.all_eq_true]
  exact ⟨fun h g => by simpa using h g (mem_groupIds g), fun h g _ => by simpa using h g⟩

/-- One round of settling that changes nothing ends it. -/
theorem settle_of_settleOnce {s t : State} (h : s.settleOnce = t) (k : t.settleOnce = t) : s.settle = t := by
  simp only [State.settle, h, k]

theorem completeStage_eq_self (s : State)
    (h : s.seq.mode ≠ .run ∨ s.seq.step ≠ .enter ∨ ∀ n, s.seq.stage = some n → ¬ StageComplete s n) :
    s.completeStage = s := by
  unfold State.completeStage
  split
  · rename_i a b c
    rcases h with h | h | h
    · exact absurd a h
    · exact absurd b h
    · have := h _ c
      rw [← changeComplete_iff] at this
      rw [if_neg this]
  · rfl

theorem runFailRed_eq_self (s : State) (h : s.fallback.failRed ≠ .waiting) : s.runFailRed = s := by
  unfold State.runFailRed
  split
  · rename_i a; exact absurd a h
  · rfl
  · rfl

theorem applyLost_eq_self (s : State) (h : s.scanner.mains = .present) : s.applyLost = s := by simp [State.applyLost, h]

/-- With nothing to follow, one round of settling changes nothing. -/
theorem settleOnce_eq_self (s : State)
    (h1 : s.seq.mode ≠ .run ∨ s.seq.step ≠ .enter ∨ ∀ n, s.seq.stage = some n → ¬ StageComplete s n)
    (h2 : s.fallback.failRed ≠ .waiting)
    (h3 : s.mgmt.activation = .none ∨ (s.seq.mode = .run ∧ s.seq.transfer ≠ .clearing)) (h4 : s.scanner.mains = .present) :
    s.settleOnce = s := by
  have ha : s.activate = s := by
    unfold State.activate
    split
    · rfl
    · rename_i e
      rcases h3 with h | h
      · rw [h] at e; cases e
      · simp [h.1, h.2]
  simp only [State.settleOnce, completeStage_eq_self s h1, runFailRed_eq_self s h2, ha, applyLost_eq_self s h4]

/-- A stage change in ENTER, no transfer in CLEARING: MIN begins when it is complete, else nothing follows (R105, R106). -/
theorem settle_stage (s : State) (n : Nat) (h0 : s.seq.mode = .run) (h1 : s.seq.step = .enter) (h2 : s.seq.stage = some n)
    (h3 : s.seq.transfer ≠ .clearing) (h4 : s.fallback.failRed ≠ .waiting) (h5 : s.scanner.mains = .present) :
    (StageComplete s n → s.settle = s.minStart) ∧ (¬ StageComplete s n → s.settle = s) := by
  constructor
  · intro h
    have hm : s.minStart.seq.mode = .run ∧ s.minStart.seq.step = .min ∧ s.minStart.fallback = s.fallback ∧
        s.minStart.scanner = s.scanner ∧ s.minStart.seq.transfer = s.seq.transfer := by
      simp [State.minStart, h2, h0]
    have k : s.minStart.settleOnce = s.minStart :=
      settleOnce_eq_self _ (by simp [hm]) (by rw [hm.2.2.1]; exact h4) (Or.inr ⟨hm.1, by rw [hm.2.2.2.2]; exact h3⟩)
        (by rw [hm.2.2.2.1]; exact h5)
    have hc : s.completeStage = s.minStart := by simp [State.completeStage, h0, h1, h2, changeComplete_iff, h]
    have hc' : s.minStart.completeStage = s.minStart := completeStage_eq_self _ (by simp [hm])
    refine settle_of_settleOnce ?_ k
    rw [State.settleOnce, hc] at *
    rw [hc'] at k
    exact k
  · intro h
    have k := settleOnce_eq_self s (Or.inr (Or.inr (by intro m hm; rw [h2] at hm; cases hm; exact h))) h4 (Or.inr ⟨h0, h3⟩) h5
    exact settle_of_settleOnce k k

/-- A PENDING activation that is carried out makes the swap, and nothing follows it (R68, R69). -/
theorem settle_swap (s : State) (h1 : s.seq.mode ≠ .run ∨ s.seq.step ≠ .enter) (h2 : s.scanner.mains = .present)
    (h3 : s.fallback.failRed ≠ .waiting ∨ s.seq.mode = .failRed) (h4 : s.runFailRed.activate = s.runFailRed.swap) :
    s.settle = s.runFailRed.swap := by
  have hc : s.completeStage = s := completeStage_eq_self s (by rcases h1 with h | h <;> simp [h])
  have hr := runFailRed_settled s
  have hm : s.runFailRed.seq = s.seq := by
    unfold State.runFailRed
    split
    · split <;> rfl
    · rfl
    · rfl
  have hw : s.runFailRed.fallback.failRed ≠ .waiting ∨ s.runFailRed.seq.mode = .failRed := by
    rcases h3 with h | h
    · rw [runFailRed_eq_self s h]; exact Or.inl h
    · rw [hm]; exact Or.inr h
  have hl := swap_leaves s.runFailRed
  have hp : s.runFailRed.swap.scanner.mains = .present := by rw [hl.2.2.1, hr.mains]; exact h2
  refine settle_of_settleOnce ?_ (settleOnce_eq_self _ (Or.inl hl.2.1) (hl.2.2.2 hw) (Or.inl hl.1) hp)
  rw [State.settleOnce, hc, h4, applyLost_eq_self _ hp]

end Sys2Proof.Machine
end

