-- ==== Sys2Proof/Laws/Evidence.lean ====
section
/-! SUPPORT. Working green evidence out afresh brings every group's evidence to what its GREEN circuits and their cores give (R157). -/

namespace Sys2Proof.Machine

theorem Control.evidenceOf {s t : State} (h : Control s t) (g : GroupId) : t.evidenceOf g = s.evidenceOf g := by
  simp only [State.evidenceOf, State.used, State.cfg, h.mgmt, h.drive, h.cable, h.kind]

/-- Every group's evidence is kept. -/
def EvidenceKept (s t : State) : Prop := ∀ i : GroupId, t.groups[i].evidence = s.groups[i].evidence

theorem EvidenceKept.of_groups {s t : State} (h : t.groups = s.groups) : EvidenceKept s t := fun i => by rw [h]

theorem showAll_evidenceKept {s t : State} (v p : Aspect) (h : t.groups = s.groups) : EvidenceKept s (t.showAll v p) := fun i =>
  ((showAll_groupsOnly t v p).evidence i).trans (by rw [h])

theorem leaveNormal_groups (s : State) : s.leaveNormal.groups = s.groups := by unfold State.leaveNormal; split <;> rfl

theorem toFlash_evidenceKept {s t : State} (f : Fallback) (h : t.groups = s.groups) : EvidenceKept s (t.toFlash f) :=
  showAll_evidenceKept _ _ (by rw [shift_groups, leaveNormal_groups, h])

theorem toDark_evidenceKept {s t : State} (f : Fallback) (h : t.groups = s.groups) : EvidenceKept s (t.toDark f) :=
  showAll_evidenceKept _ _ (by rw [shift_groups, leaveNormal_groups, h])

theorem foldl_raise_groups (c : AlarmCode) (l : List Byte) (s : State) : (l.foldl (fun t q => t.raise c q) s).groups = s.groups := by
  induction l generalizing s with
  | nil => rfl
  | cons q l ih => exact (ih _).trans rfl

/-- A conflict changes no evidence. -/
theorem conflictDetected_evidenceKept (s : State) (l : List Byte) : EvidenceKept s (s.conflictDetected l) := by
  unfold State.conflictDetected
  split
  · exact fun _ => rfl
  · dsimp only
    rename_i p rest
    have k := foldl_raise_groups .conflict (p :: rest) { s with fallback := { s.fallback with latch := true } }
    generalize (p :: rest).foldl (fun t q => t.raise .conflict q) { s with fallback := { s.fallback with latch := true } } = t at k ⊢
    have hs : ∀ m f, EvidenceKept s (t.shift m f) := fun m f => .of_groups ((shift_groups t m f).trans k)
    split
    · exact hs _ _
    · split
      · exact toDark_evidenceKept _ k
      · exact hs _ _
    all_goals
      split
      · exact toDark_evidenceKept _ k
      · exact toFlash_evidenceKept _ k

theorem setEvidence_evidence (s : State) (g : GroupId) (v : Bool) (i : GroupId) :
    (s.setEvidence g v).groups[i].evidence = if g = i then v else s.groups[i].evidence := by
  have h : ((s.setGroup g { s.groups[g] with evidence := v }).dropEndedPairs.recheckAround g).groups[i].evidence =
      if g = i then v else s.groups[i].evidence := by
    rw [(recheckAround_groupsOnly _ g).evidence]
    show (s.setGroup g { s.groups[g] with evidence := v }).groups[i].evidence = _
    rw [getElem_setGroup]
    split <;> rfl
  unfold State.setEvidence
  dsimp only
  split
  · rw [conflictDetected_evidenceKept]; exact h
  · exact h

/-- A pass over groups that sets the evidence of some to v, where the evidence is to be v, leaves each set or untouched. -/
theorem foldl_setEvidence (v : Bool) (c : State → GroupId → Bool)
    (hc : ∀ t g, c t g = (decide (t.groups[g].evidence = !v) && decide (t.evidenceOf g = v))) (l : List GroupId) (s : State) (i : GroupId) :
    (l.foldl (fun u g => if c u g then u.setEvidence g v else u) s).groups[i].evidence =
      if i ∈ l ∧ s.evidenceOf i = v then v else s.groups[i].evidence := by
  induction l generalizing s with
  | nil => simp
  | cons a l ih =>
    rw [List.foldl_cons, ih]
    by_cases h : c s a = true
    · rw [if_pos h, (setEvidence_control s a v).evidenceOf, setEvidence_evidence]
      rw [hc, Bool.and_eq_true, decide_eq_true_eq, decide_eq_true_eq] at h
      by_cases e : a = i
      · subst e; simp [h.2]
      · simp [e, Ne.symm (a := a) (b := i) e]
    · rw [if_neg h]
      rw [hc, Bool.and_eq_true, decide_eq_true_eq, decide_eq_true_eq] at h
      by_cases e : a = i
      · subst e
        by_cases k : s.evidenceOf a = v
        · have : s.groups[a].evidence = v := by
            rcases hv : s.groups[a].evidence with _ | _ <;> rcases v with _ | _ <;> simp_all
          simp only [this]; split <;> split <;> rfl
        · simp [k]
      · simp [Ne.symm (a := a) (b := i) e]

/-- After a refresh every group's evidence is what its GREEN circuits and their cores give (R157). -/
theorem refreshEvidence_evidence (s : State) (i : GroupId) : s.refreshEvidence.groups[i].evidence = s.evidenceOf i := by
  unfold State.refreshEvidence
  dsimp only
  have e : ∀ t : State, Control s t → t.evidenceOf i = s.evidenceOf i := fun t h => h.evidenceOf i
  rw [foldl_setEvidence true (fun s g => !s.groups[g].evidence && s.evidenceOf g)
      (fun t g => by cases t.groups[g].evidence <;> cases t.evidenceOf g <;> rfl),
    foldl_setEvidence false (fun s g => s.groups[g].evidence && !s.evidenceOf g)
      (fun t g => by cases t.groups[g].evidence <;> cases t.evidenceOf g <;> rfl)]
  rw [e _ (foldl_control _ (fun t g => by
    split
    · exact setEvidence_control t g _
    · exact Control.refl t) _ s)]
  cases s.evidenceOf i <;> simp

end Sys2Proof.Machine
end

