-- ==== Sys2Proof/Laws/Memory.lean ====
section
/-! SUPPORT. The byte memory: what a read gives after a write, and that every write keeps the canonical form. -/

namespace Sys2Proof.Machine

/-- An offset below every listed one reads 0. -/
theorem Memory.read_of_above (m : Memory) (k : Nat) (h : Memory.above k m = true) : Memory.read m k = 0 := by
  induction m with
  | nil => rfl
  | cons c m ih =>
    obtain ⟨a, b⟩ := c
    simp only [Memory.above, List.all_cons, Bool.and_eq_true, decide_eq_true_eq] at h
    have hne : a ≠ k := by omega
    simp only [Memory.read, hne, if_false]
    exact ih h.2

/-- A higher bound than needed may be lowered. -/
theorem Memory.above_mono (m : Memory) (j k : Nat) (hjk : j ≤ k) (h : Memory.above k m = true) :
    Memory.above j m = true := by
  simp only [Memory.above, List.all_eq_true, decide_eq_true_eq] at *
  intro c hc
  have := h c hc
  omega

/-- A write lists nothing new but its own cell. -/
theorem Memory.mem_write (m : Memory) (k : Nat) (v : Byte) (c : Host.Cell) (h : c ∈ Memory.write m k v) :
    c.1 = k ∨ c ∈ m := by
  induction m with
  | nil =>
    unfold Memory.write at h
    split at h
    · exact Or.inr h
    · left; simp only [List.mem_singleton] at h; rw [h]
  | cons d m ih =>
    obtain ⟨a, b⟩ := d
    simp only [Memory.write] at h
    split at h
    · split at h
      · exact Or.inr h
      · rcases List.mem_cons.mp h with h | h
        · left; rw [h]
        · exact Or.inr h
    · split at h
      · split at h
        · exact Or.inr (List.mem_cons_of_mem _ h)
        · rcases List.mem_cons.mp h with h | h
          · left; rw [h]
          · exact Or.inr (List.mem_cons_of_mem _ h)
      · rcases List.mem_cons.mp h with h | h
        · right; rw [h]; exact List.mem_cons_self
        · rcases ih h with h | h
          · exact Or.inl h
          · exact Or.inr (List.mem_cons_of_mem _ h)

/-- A write above a bound keeps the bound. -/
theorem Memory.above_write (m : Memory) (j k : Nat) (v : Byte) (hj : j < k) (h : Memory.above j m = true) :
    Memory.above j (Memory.write m k v) = true := by
  simp only [Memory.above, List.all_eq_true, decide_eq_true_eq] at *
  intro c hc
  rcases Memory.mem_write m k v c hc with e | hm
  · omega
  · exact h c hm

/-- A write keeps the canonical form. -/
theorem Memory.wf_write (m : Memory) (k : Nat) (v : Byte) (h : Memory.wf m = true) :
    Memory.wf (Memory.write m k v) = true := by
  induction m with
  | nil =>
    unfold Memory.write
    split
    · rfl
    · rename_i hv
      have hv' : ¬ v = 0#8 := hv
      simp [Memory.wf, Memory.above, hv']
  | cons c m ih =>
    obtain ⟨a, b⟩ := c
    have h' := h
    simp only [Memory.wf, Bool.and_eq_true] at h
    obtain ⟨⟨hb, hab⟩, hm⟩ := h
    simp only [Memory.write]
    split
    · rename_i hka
      split
      · exact h'
      · rename_i hv
        have hup : Memory.above k ((a, b) :: m) = true := by
          simp only [Memory.above, List.all_cons, Bool.and_eq_true, decide_eq_true_eq]
          exact ⟨hka, Memory.above_mono m k a (by omega) hab⟩
        simp only [Memory.wf] at h' ⊢
        simp only [Bool.and_eq_true, hup, h', and_true]
        simpa using hv
    · split
      · split
        · exact hm
        · rename_i hka hkeq hv
          subst hkeq
          simp only [Memory.wf, Bool.and_eq_true, hab, hm, and_true]
          simpa using hv
      · rename_i hka hne
        simp only [Memory.wf, Bool.and_eq_true]
        exact ⟨⟨hb, Memory.above_write m a k v (by omega) hab⟩, ih hm⟩

/-- Writes at successive offsets keep the canonical form. -/
theorem Memory.wf_writeMany (l : List Byte) (m : Memory) (k : Nat) (h : Memory.wf m = true) :
    Memory.wf (Memory.writeMany m k l) = true := by
  induction l generalizing m k with
  | nil => exact h
  | cons v l ih => exact ih (Memory.write m k v) (k + 1) (Memory.wf_write m k v h)

/-- A read after a write: the byte written at its offset, every other byte as before. -/
theorem Memory.read_write (m : Memory) (k a : Nat) (v : Byte) (h : Memory.wf m = true) :
    Memory.read (Memory.write m k v) a = if a = k then v else Memory.read m a := by
  induction m with
  | nil =>
    unfold Memory.write
    by_cases hak : a = k
    · subst hak
      split <;> simp_all [Memory.read]
    · have hka : ¬ k = a := fun e => hak e.symm
      split <;> simp [Memory.read, hka]
  | cons c m ih =>
    obtain ⟨x, b⟩ := c
    simp only [Memory.wf, Bool.and_eq_true] at h
    obtain ⟨⟨_, hab⟩, hm⟩ := h
    simp only [Memory.write]
    by_cases hkx : k < x
    · simp only [hkx, if_true]
      by_cases hv : v = 0
      · simp only [hv, if_true]
        by_cases hak : a = k
        · subst hak
          have hup : Memory.above a m = true := Memory.above_mono m a x (by omega) hab
          have hxa : x ≠ a := by omega
          simp only [Memory.read, hxa, if_false, if_true]
          exact Memory.read_of_above m a hup
        · simp [hak]
      · simp only [hv, if_false]
        by_cases hak : a = k
        · subst hak; simp [Memory.read]
        · have hka : k ≠ a := fun e => hak e.symm
          simp [Memory.read, hka, hak]
    · simp only [hkx, if_false]
      by_cases hkeq : k = x
      · subst hkeq
        simp only [if_true]
        by_cases hv : v = 0
        · simp only [hv, if_true]
          by_cases hak : a = k
          · subst hak; simpa using Memory.read_of_above m a hab
          · have hka : k ≠ a := fun e => hak e.symm
            simp [Memory.read, hka, hak]
        · simp only [hv, if_false]
          by_cases hak : a = k
          · subst hak; simp [Memory.read]
          · have hka : k ≠ a := fun e => hak e.symm
            simp [Memory.read, hka, hak]
      · simp only [hkeq, if_false, Memory.read]
        by_cases hxa : x = a
        · have hak : ¬ a = k := by omega
          simp [hxa, hak]
        · simp only [hxa, if_false]
          exact ih hm

/-- A read after writes at successive offsets. -/
theorem Memory.read_writeMany (l : List Byte) (m : Memory) (k a : Nat) (h : Memory.wf m = true) :
    Memory.read (Memory.writeMany m k l) a =
      if k ≤ a ∧ a < k + l.length then (l[a - k]?).getD 0 else Memory.read m a := by
  induction l generalizing m k with
  | nil =>
    have : ¬ (k ≤ a ∧ a < k + ([] : List Byte).length) := by simp
    simp only [this, if_false, Memory.writeMany]
  | cons v l ih =>
    simp only [Memory.writeMany]
    rw [ih (Memory.write m k v) (k + 1) (Memory.wf_write m k v h), Memory.read_write m k a v h]
    by_cases hak : a = k
    · subst hak
      have h1 : ¬ (a + 1 ≤ a ∧ a < a + 1 + l.length) := by omega
      rw [if_neg h1]
      simp
    · by_cases hin : k + 1 ≤ a ∧ a < k + 1 + l.length
      · have h2 : k ≤ a ∧ a < k + (v :: l).length := by simp only [List.length_cons]; omega
        simp only [hin, h2, and_self, if_true]
        have : a - k = (a - (k + 1)) + 1 := by omega
        rw [this, List.getElem?_cons_succ]
      · have h2 : ¬ (k ≤ a ∧ a < k + (v :: l).length) := by simp only [List.length_cons]; omega
        simp only [hin, h2, if_false, hak]

/-- A write below a bound lists nothing at or above it. -/
theorem Memory.below_write (m : Memory) (k n : Nat) (v : Byte) (hk : k < n)
    (h : m.all (fun c => decide (c.1 < n)) = true) :
    (Memory.write m k v).all (fun c => decide (c.1 < n)) = true := by
  simp only [List.all_eq_true, decide_eq_true_eq] at *
  intro c hc
  rcases Memory.mem_write m k v c hc with e | hm
  · omega
  · exact h c hm

/-- Writes at successive offsets below a bound list nothing at or above it. -/
theorem Memory.below_writeMany (l : List Byte) (m : Memory) (k n : Nat) (hk : k + l.length ≤ n)
    (h : m.all (fun c => decide (c.1 < n)) = true) :
    (Memory.writeMany m k l).all (fun c => decide (c.1 < n)) = true := by
  induction l generalizing m k with
  | nil => exact h
  | cons v l ih =>
    simp only [List.length_cons] at hk
    exact ih (Memory.write m k v) (k + 1) (by omega) (Memory.below_write m k n v (by omega) h)

/-- Memory after reset is canonical. -/
theorem Memory.wf_reset :
    Memory.wf State.reset.mgmt.staging = true ∧ Memory.wf State.reset.nv.image = true ∧ State.reset.mgmt.active = none := by
  decide

end Sys2Proof.Machine
end

