-- ==== Sys2Proof/Laws/RingOut.lean ====
section
/-! SUPPORT. What RING OUT has on the line (R1). -/

namespace Sys2Proof.Machine

/-- A frame has one symbol for each of its bytes and its two markers. -/
@[simp] theorem symbols_length (f : Frame) (check : Half) : (f.symbols check).length = f.payload.length + 11 := by
  simp [Frame.symbols, Frame.body]

/-- The time of a frame on the line is one byte time for each of its symbols. -/
theorem lineMicros_eq_symbols (f : Frame) (check : Half) : f.lineMicros = (f.symbols check).length * 8 := by
  simp [Frame.lineMicros]

/-- Every symbol is sent in normal sense. -/
theorem lineSymbol_normal {o : OutPort} {now : Nat} {x : LineSymbol} (h : o.lineSymbol now = some x) : x.sense = .normal := by
  cases o with
  | idle => simp [OutPort.lineSymbol] at h
  | frame f check carries ends =>
    simp only [OutPort.lineSymbol, Option.map_eq_some_iff] at h
    obtain ⟨k, -, rfl⟩ := h
    rfl
  | mark ends =>
    simp only [OutPort.lineSymbol, Option.ite_none_right_eq_some, Option.some.injEq] at h
    exact h.2 ▸ rfl

/-- A frame that began at `start` has its symbols on the line in order, one a byte time, and nothing after the last. -/
theorem lineSymbol_frame (f : Frame) (check : Half) (carries : Bool) (start later : Nat) :
    (OutPort.frame f check carries (start + f.lineMicros)).lineSymbol (start + later) =
      ((f.symbols check)[later / 8]?).map (fun k => { sense := .normal, kind := k }) := by
  have : start + later + (f.payload.length + 11) * 8 - (start + (f.payload.length + 9 + 2) * 8) = later := by omega
  simp only [OutPort.lineSymbol, symbols_length, Frame.lineMicros, this]

end Sys2Proof.Machine
end

