-- ==== Sys2Proof/Laws/TableSpace.lean ====
section
/-! SUPPORT. Laws of the table space: the field that a PEEK reads in each window and record. -/

namespace Sys2Proof.Machine

/-- An address in a window. -/
theorem Window.has_eq_true (w : Window) (a : Nat) : w.has a = true ↔ w.first ≤ a ∧ a ≤ w.last := by
  simp [Window.has]

/-- An address outside a window. -/
theorem Window.has_eq_false (w : Window) (a : Nat) : w.has a = false ↔ a < w.first ∨ w.last < a := by
  rw [← Bool.not_eq_true, Window.has_eq_true]
  omega

/-- The identity window (R43, R45). -/
theorem State.peek_identity (s : State) (a : Nat) (h : a ≤ 0x00FF) : s.peekByte a = s.identityByte a := by
  simp [State.peekByte, Window.has, identityWindow, h]

/-- The control window. -/
theorem State.peek_control (s : State) (a : Nat) (h : 0x0100 ≤ a) (h' : a ≤ 0x01FF) : s.peekByte a = s.controlByte a := by
  have : ¬ a ≤ 0x00FF := by omega
  simp [State.peekByte, Window.has, identityWindow, controlWindow, h, h', this]

/-- The junction status window. -/
theorem State.peek_status (s : State) (a : Nat) (h : 0x0200 ≤ a) (h' : a ≤ 0x02FF) : s.peekByte a = s.statusByte a := by
  have : ¬ a ≤ 0x00FF := by omega
  have : ¬ a ≤ 0x01FF := by omega
  simp [State.peekByte, Window.has, identityWindow, controlWindow, statusWindow, *]

/-- The counters window. -/
theorem State.peek_counters (s : State) (a : Nat) (h : 0x0300 ≤ a) (h' : a ≤ 0x03FF) : s.peekByte a = s.counterByte a := by
  have : ¬ a ≤ 0x00FF := by omega
  have : ¬ a ≤ 0x01FF := by omega
  have : ¬ a ≤ 0x02FF := by omega
  simp [State.peekByte, Window.has, identityWindow, controlWindow, statusWindow, countersWindow, *]

/-- A group record. -/
theorem State.peek_group (s : State) (g : GroupId) (b : Nat) (h : b < 16) :
    s.peekByte (0x0220 + 16 * g.val + b) = s.groupByte g b := by
  have hg := g.isLt
  have e1 : (0x0220 + 16 * g.val + b - 0x220) / 16 = g.val := by omega
  have e2 : (0x0220 + 16 * g.val + b - 0x220) % 16 = b := by omega
  have h1 : 0x220 ≤ 0x0220 + 16 * g.val + b ∧ 0x0220 + 16 * g.val + b < 0x2A0 := by omega
  rw [State.peek_status s _ (by omega) (by omega), State.statusByte, dif_pos h1]
  simp only [e1, e2, Fin.eta]

/-- A drive record. -/
theorem State.peek_drive (s : State) (n : CircuitId) (b : Nat) (h : b < 4) :
    s.peekByte (0x02A0 + 4 * n.val + b) = s.driveByte n b := by
  have hn := n.isLt
  have e1 : (0x02A0 + 4 * n.val + b - 0x2A0) / 4 = n.val := by omega
  have e2 : (0x02A0 + 4 * n.val + b - 0x2A0) % 4 = b := by omega
  have h0 : ¬ (0x220 ≤ 0x02A0 + 4 * n.val + b ∧ 0x02A0 + 4 * n.val + b < 0x2A0) := by omega
  have h1 : 0x2A0 ≤ 0x02A0 + 4 * n.val + b ∧ 0x02A0 + 4 * n.val + b < 0x300 := by omega
  rw [State.peek_status s _ (by omega) (by omega), State.statusByte, dif_neg h0, dif_pos h1]
  simp only [e1, e2, Fin.eta]

/-- The windows that end below an address do not hold it. -/
theorem State.peek_past_counters (s : State) (a : Nat) (h : 0x0400 ≤ a) :
    s.peekByte a =
      if h : 0x400 ≤ a ∧ a < 0x4C0 then s.provingByte ⟨(a - 0x400) / 8, by omega⟩ ((a - 0x400) % 8)
      else if h : 0x500 ≤ a ∧ a < 0x5C0 then s.coreByte ⟨(a - 0x500) / 8, by omega⟩ ((a - 0x500) % 8)
      else if alarmWindow.has a then s.alarmByte a
      else if stagingWindow.has a then Memory.read s.mgmt.staging (a - 0x1000)
      else if activeWindow.has a then
        match s.cfg with
        | none => 0
        | some m => Memory.read m (a - 0x2000)
      else 0 := by
  have h1 : identityWindow.has a = false := (Window.has_eq_false _ _).mpr (by simp only [identityWindow]; omega)
  have h2 : controlWindow.has a = false := (Window.has_eq_false _ _).mpr (by simp only [controlWindow]; omega)
  have h3 : statusWindow.has a = false := (Window.has_eq_false _ _).mpr (by simp only [statusWindow]; omega)
  have h4 : countersWindow.has a = false := (Window.has_eq_false _ _).mpr (by simp only [countersWindow]; omega)
  rw [State.peekByte, h1, h2, h3, h4]
  rfl

/-- A circuit proving record. -/
theorem State.peek_circuit (s : State) (n : CircuitId) (b : Nat) (h : b < 8) :
    s.peekByte (0x0400 + 8 * n.val + b) = s.provingByte n b := by
  have hn := n.isLt
  have e1 : (0x0400 + 8 * n.val + b - 0x400) / 8 = n.val := by omega
  have e2 : (0x0400 + 8 * n.val + b - 0x400) % 8 = b := by omega
  have h1 : 0x400 ≤ 0x0400 + 8 * n.val + b ∧ 0x0400 + 8 * n.val + b < 0x4C0 := by omega
  rw [State.peek_past_counters s _ (by omega), dif_pos h1]
  simp only [e1, e2, Fin.eta]

/-- A core record. -/
theorem State.peek_core (s : State) (n : CircuitId) (b : Nat) (h : b < 8) :
    s.peekByte (0x0500 + 8 * n.val + b) = s.coreByte n b := by
  have hn := n.isLt
  have e1 : (0x0500 + 8 * n.val + b - 0x500) / 8 = n.val := by omega
  have e2 : (0x0500 + 8 * n.val + b - 0x500) % 8 = b := by omega
  have h0 : ¬ (0x400 ≤ 0x0500 + 8 * n.val + b ∧ 0x0500 + 8 * n.val + b < 0x4C0) := by omega
  have h1 : 0x500 ≤ 0x0500 + 8 * n.val + b ∧ 0x0500 + 8 * n.val + b < 0x5C0 := by omega
  rw [State.peek_past_counters s _ (by omega), dif_neg h0, dif_pos h1]
  simp only [e1, e2, Fin.eta]

/-- A slot of the alarm list. -/
theorem State.peek_alarm (s : State) (k b : Nat) (hk : k < 32) (h : b < 12) :
    s.peekByte (0x0600 + 12 * k + b) = ((s.alarms.list[k]?).map (fun e => e.byte b)).getD 0 := by
  have e1 : (0x0600 + 12 * k + b - 0x600) / 12 = k := by omega
  have e2 : (0x0600 + 12 * k + b - 0x600) % 12 = b := by omega
  have h0 : ¬ (0x400 ≤ 0x0600 + 12 * k + b ∧ 0x0600 + 12 * k + b < 0x4C0) := by omega
  have h1 : ¬ (0x500 ≤ 0x0600 + 12 * k + b ∧ 0x0600 + 12 * k + b < 0x5C0) := by omega
  have h2 : alarmWindow.has (0x0600 + 12 * k + b) = true := (Window.has_eq_true _ _).mpr (by simp only [alarmWindow]; omega)
  rw [State.peek_past_counters s _ (by omega), dif_neg h0, dif_neg h1, if_pos h2, State.alarmByte, e1, e2]
  cases s.alarms.list[k]? <;> rfl

/-- The staging window. -/
theorem State.peek_staging (s : State) (k : Nat) (h : k < 4096) : s.peekByte (0x1000 + k) = Memory.read s.mgmt.staging k := by
  have h0 : ¬ (0x400 ≤ 0x1000 + k ∧ 0x1000 + k < 0x4C0) := by omega
  have h1 : ¬ (0x500 ≤ 0x1000 + k ∧ 0x1000 + k < 0x5C0) := by omega
  have h2 : alarmWindow.has (0x1000 + k) = false := (Window.has_eq_false _ _).mpr (by simp only [alarmWindow]; omega)
  have h3 : stagingWindow.has (0x1000 + k) = true := (Window.has_eq_true _ _).mpr (by simp only [stagingWindow]; omega)
  rw [State.peek_past_counters s _ (by omega), dif_neg h0, dif_neg h1, h2, h3]
  simp

/-- The active window. -/
theorem State.peek_active (s : State) (k : Nat) (h : k < 4096) :
    s.peekByte (0x2000 + k) =
      match s.cfg with
      | none => 0
      | some m => Memory.read m k := by
  have h0 : ¬ (0x400 ≤ 0x2000 + k ∧ 0x2000 + k < 0x4C0) := by omega
  have h1 : ¬ (0x500 ≤ 0x2000 + k ∧ 0x2000 + k < 0x5C0) := by omega
  have h2 : alarmWindow.has (0x2000 + k) = false := (Window.has_eq_false _ _).mpr (by simp only [alarmWindow]; omega)
  have h3 : stagingWindow.has (0x2000 + k) = false := (Window.has_eq_false _ _).mpr (by simp only [stagingWindow]; omega)
  have h4 : activeWindow.has (0x2000 + k) = true := (Window.has_eq_true _ _).mpr (by simp only [activeWindow]; omega)
  rw [State.peek_past_counters s _ (by omega), dif_neg h0, dif_neg h1, h2, h3, h4]
  cases s.cfg <;> simp

end Sys2Proof.Machine
end

