-- ==== Sys2Proof/WellFormed.lean ====
section
/-! DEFINITION. Which commands are well formed: the ranges the manual gives their operands. An ill-formed command is one
that nothing outside the part can send; exec is total on them all the same. -/

namespace Sys2Proof

/-- A frame holds at most 48 payload bytes (ch1, 1.4). -/
def payloadFits (n : Nat) : Bool := n ≤ 48

/-- A probe return carries an amplitude of 0 to 100 % and a width of 0 to 250 µs (R143). -/
def probeReturnInRange (amplitude width : Nat) : Bool := amplitude ≤ 100 && width ≤ 250

/-- The operand ranges, one arm for each command. -/
def Instr.wellFormed : Instr → Bool
  | .echo _ _ p => payloadFits p.length
  | .peek _ _ p => payloadFits p.length
  | .load _ _ p => payloadFits p.length
  | .callDemand _ _ a => payloadFits (a.length + 1)
  | .plan _ _ a => payloadFits (a.length + 1)
  | .force _ _ a => payloadFits (a.length + 1)
  | .hold _ _ a => payloadFits (a.length + 1)
  | .release _ _ a => payloadFits (a.length + 1)
  | .allRed _ _ a => payloadFits (a.length + 1)
  | .resume _ _ a => payloadFits (a.length + 1)
  | .flash _ _ a => payloadFits (a.length + 1)
  | .dark _ _ a => payloadFits (a.length + 1)
  | .time _ _ a => payloadFits (a.length + 1)
  | .probeReturn _ _ a w => probeReturnInRange a w
  | .powerOnReset _ | .resetEnd _ _ _ _ | .stationResetCarriedOut _ | .keepAliveMark _ | .markEnd _
  | .validMark _ _ | .invertedMark _ _ | .startMarker _ | .invertedStartMarker _ | .dataByte _ _
  | .invalidLineSymbol _ | .discardingSilence _ | .seekingTimeout _ | .silenceWatchdog _ | .endMarker _
  | .transmissionStart _ | .transmissionEnd _ | .insertionAttempt _ | .commit _ _ _ | .retire _ _ _
  | .clearCounters _ _ _ | .stageFlagClear _ _ _ | .mgmtStatusClear _ _ _ | .clearProving _ _ _
  | .coreRetest _ _ _ | .stationReset _ _ _ | .protection _ _ _ | .imageWriteEnd _ | .maskWriteEnd _
  | .contactSample _ _ | .heldExtension _ _ | .cabinetClockTick _ | .supervisionExpiry _ | .startRedExpiry _
  | .minExpiry _ | .extensionDeadline _ | .stall _ | .redAmberDue _ _ | .earliestGreenDue _ _
  | .redAmberExpiry _ _ | .amberExpiry _ _ | .clearanceExpiry _ _ | .halfCycleMark _ _ | .flashPhaseEdge _
  | .driveEnFall _ | .driveEnRise _ | .mainsLost _ | .probeRequest _ _ | .leakageTestStart _
  | .leakageResult _ _ | .failRedExpiry _ => true

end Sys2Proof
end

