-- ==== Sys2Proof/Tests/Slice0.lean ====
section
/-! SUPPORT. Tests: the well-formedness smoke, the check of a frame, single steps of the worked examples, and a witness for the hypotheses
of every obligation, clause by clause at the boundary values. -/

namespace Sys2Proof.Tests

set_option Elab.async false

open Sys2Proof Sys2Proof.Machine Sys2Proof.Safety

/-! ### Well-formedness: one ill-formed command for each check -/

/-- A header. -/
def env : Env := { flags := 0, dest := 0x40, src := 0x01, seq := 7, tally := 0 }

/-- A payload one byte too long. -/
def tooLong : List Byte := List.replicate 49 0

/-- CALL arguments one byte too many. -/
def tooMany : List Byte := List.replicate 48 0

theorem test_illformed_frames :
    (Instr.echo 0 env tooLong).wellFormed = false ∧ (Instr.peek 0 env tooLong).wellFormed = false ∧
    (Instr.load 0 env tooLong).wellFormed = false := by decide +kernel

theorem test_illformed_calls :
    (Instr.callDemand 0 env tooMany).wellFormed = false ∧ (Instr.plan 0 env tooMany).wellFormed = false ∧
    (Instr.force 0 env tooMany).wellFormed = false ∧ (Instr.hold 0 env tooMany).wellFormed = false ∧
    (Instr.release 0 env tooMany).wellFormed = false ∧ (Instr.allRed 0 env tooMany).wellFormed = false ∧
    (Instr.resume 0 env tooMany).wellFormed = false ∧ (Instr.flash 0 env tooMany).wellFormed = false ∧
    (Instr.dark 0 env tooMany).wellFormed = false ∧ (Instr.time 0 env tooMany).wellFormed = false := by decide +kernel

theorem test_illformed_probe_return :
    (Instr.probeReturn 0 3 101 50).wellFormed = false ∧ (Instr.probeReturn 0 3 100 251).wellFormed = false := by decide

theorem test_wellformed_at_the_limits :
    (Instr.echo 0 env (List.replicate 48 0)).wellFormed = true ∧ (Instr.plan 0 env (List.replicate 47 0)).wellFormed = true ∧
    (Instr.probeReturn 0 3 100 250).wellFormed = true ∧ (Instr.commit 0 env 1).wellFormed = true := by decide +kernel

/-- No word spells a command: the table gives no row any bits. -/
theorem test_no_word_is_a_command : decodeTableWord 0 0 = none ∧ decodeTableWord 32 0xFFFFFFFF = none := by decide

/-! ### The check (R12) -/

/-- The remainder over the bytes 0x31 to 0x39 with the register at all ones. -/
theorem test_check : crc [0x31, 0x32, 0x33, 0x34, 0x35, 0x36, 0x37, 0x38, 0x39] = 0x29B1 := by decide +kernel

/-! ### A small junction -/

/-- Bytes at successive offsets, zeros left out. -/
def bytesAt (a : Nat) (l : List Byte) : Memory := Memory.writeMany [] a l

/-- General block, groups, intergreens, stages and plan 0 of the junction: A VEHICLE and B PEDESTRIAN conflict. -/
def demoControl : Memory :=
  bytesAt 0 [1, 30, 0, 60, 0, 60, 0, 100, 0, 0, 0, 1] ++ bytesAt 256 [1, 2] ++ bytesAt 272 [0, 20, 0, 30] ++ bytesAt 282 [0, 50]
    ++ bytesAt 320 [2, 1] ++ bytesAt 514 [0, 50] ++ bytesAt 528 [0, 50] ++ bytesAt 768 [1, 0, 0, 60, 2, 0, 0, 60]
    ++ bytesAt 1024 [2] ++ bytesAt 1040 [0, 0, 0, 60, 0, 120, 0, 20] ++ bytesAt 1048 [1, 1, 0, 60, 0, 120, 0, 20]

/-- Lamp map, proving limits and core settings of C0 to C4. -/
def demoLamps : Memory :=
  bytesAt 2048 [0, 255, 1, 255, 2, 255, 255, 255, 3, 255, 255, 255, 4, 255] ++ bytesAt 2062 (List.replicate 50 255)
    ++ [0, 1, 2, 3, 4].flatMap (fun n => bytesAt (2304 + 10 * n) [1, 0, 0, 60, 0, 150, 2, 88, 7, 208])
    ++ [0, 1, 2, 3, 4].flatMap (fun n => bytesAt (2560 + 8 * n) [1, 40, 20, 80, 0, 50, 0, 200])

/-- Recognition entries 0 to 2, alias 0x20 with rewrite, and the demand lines D0 and D8. -/
def demoRing : Memory :=
  bytesAt 2816 [1, 2, 0x11, 3, 1, 0, 255, 255] ++ bytesAt 2824 [3, 0, 0x11, 3, 2, 0, 0, 0]
    ++ bytesAt 2832 [1, 2, 0x12, 3, 0, 0, 0, 0]
    ++ bytesAt 2944 [1, 0x20, 1] ++ bytesAt 3072 [1, 0, 0, 2] ++ bytesAt 3104 [1, 1, 0, 1]

def demo : Memory := demoControl ++ demoLamps ++ demoRing

/-- The small configuration is canonical and passes validation (R61 to R65). -/
theorem test_demo_is_valid : memoryFits demo = true ∧ validate demo = none := by decide +kernel

/-- The first failing item of an empty table: SUPERVISOR_ID 0 (R63). -/
theorem test_empty_table_is_invalid : validate [] = some (7, 0) := by decide +kernel

/-- A group of the junction in RUN: A GREEN, B RED. -/
def demoGroup (g : GroupId) : Group :=
  { kind := cfgKind (some demo) g
    aspect := if g = 0 then .green else if g = 1 then .red else .dark
    timer := none, gain := none, greenEnd := 0, withheld := false, withheldSince := none
    redStatus := if g = 1 then .proven else .unproven
    evidence := false }

/-- The junction in RUN under SUPERVISED, in EXTEND of step 0, with nothing waiting on the ring. -/
def run : State :=
  { State.reset with
    ring := { State.reset.ring with
      line := { State.reset.ring.line with state := .up }, insertion := [], nextAttempt := none }
    mgmt := { State.reset.mgmt with staging := demo, active := some demo }
    seq := { State.reset.seq with
      mode := .run, control := .supervised, supervision := some 300, step := .extend, stage := some 0, stepStart := some 0,
      minExpiry := some 0 }
    groups := Vector.ofFn demoGroup
    drive := { State.reset.drive with driveEn := true, pin := { level := true, since := 0, seen := 0 } }
    fallback := { State.reset.fallback with cause := { cause := .none, subject := 255, time := 0 } }
    alarms := { State.reset.alarms with list := [] } }

/-- The junction with another sequencer. -/
def runAt (f : Sequencer → Sequencer) : State := { run with seq := f run.seq }

/-- The junction with another ring port. -/
def ringAt (f : RingPort → RingPort) : State := { run with ring := f run.ring }

/-- The junction with another line record. -/
def lineAt (f : LineRecord → LineRecord) : State := ringAt (fun r => { r with line := f r.line })

/-- The junction with another group A. -/
def groupA (f : Group → Group) : State := { run with groups := run.groups.set 0 (f run.groups[0]) }

/-- The junction with another group B. -/
def groupB (f : Group → Group) : State := { run with groups := run.groups.set 1 (f run.groups[1]) }

/-- The state after a command. -/
def after (c : Instr) (s : State) : State :=
  match exec c s with
  | .next t => t
  | .fault _ => s
  | .refused _ => s

/-! ### Single steps -/

/-- An idle queue leaves the state; a queued command runs (log 3). -/
theorem test_step : step run = .next run ∧ step { run with pending := [.stall 5] } = .next (elapse 5 run) := ⟨rfl, rfl⟩

/-- The third inverted mark in DOWN flips the polarity and takes the line to SEEKING (worked example of 1.3). -/
theorem test_crossed_hop :
    let s := after (.invertedMark 4000 1200)
      { run with ring := { run.ring with line := { run.ring.line with state := .down, invertedMarks := 2 } } }
    s.ring.line.state = .seeking ∧ s.ring.line.polarity = .inverted ∧ s.ring.line.markRun = 1 ∧
      s.ring.line.lastMark = some 4000 := by decide +kernel

/-- A COMMIT of the empty table is answered INVALID with the failing item (R61). -/
theorem test_commit_invalid :
    let s := after (.commit 0 env 1) { run with mgmt := { run.mgmt with staging := [] } }
    s.mgmt.checkCode = 7 ∧ s.mgmt.checkSubject = 0 ∧ s.mgmt.store = .idle ∧
      s.ring.transit.map (fun q => q.frame.flags) = [5] := by decide +kernel

/-- A COMMIT of a valid table starts the image write (R66). -/
theorem test_commit_taken :
    let s := after (.commit 0 env 1) run
    s.mgmt.store = .image 0 false ∧ s.nv.imageMarker = false ∧ s.ring.transit.map (fun q => q.frame.flags) = [1] := by
  decide +kernel

/-- At the end of a power-on reset the stored configuration comes up in START with every used group RED (R58, R73, R102). -/
theorem test_reset_end_starts :
    let s := after (.resetEnd 10000 3 true true)
      { run with phase := .powerOn 0, nv := { run.nv with imageMarker := true, imageCheckMatches := true, image := demo } }
    s.seq.mode = .start ∧ s.groups[0].aspect = .red ∧ s.groups[1].aspect = .red ∧ s.groups[2].aspect = .dark ∧
      s.ownId = 0x43 ∧ s.alarms.list.map (fun e => e.code) = [.lineDown] := by decide +kernel

/-- A step end with stage 1 demanded: A to AMBER, B gains with E five seconds on (worked example of 6.10). -/
theorem test_step_end_changes_stage :
    let s := after (.extensionDeadline 200000) { run with demand := { run.demand with register := 2 } }
    s.seq.step = .enter ∧ s.seq.stage = some 1 ∧ s.seq.pointer = 1 ∧ s.groups[0].aspect = .amber ∧
      s.groups[0].greenEnd = 2 ∧ s.groups[1].gain = some 52 ∧ s.alarms.stageEnd = 1 := by decide +kernel

/-- CALL HOLD from another source is REFUSED and counted (R29). -/
theorem test_hold_refused_for_source :
    let s := after (.hold 0 { env with src := 5 } []) run
    s.classifier.refusedCall = 1 ∧ s.seq.hold = false ∧ s.ring.transit.map (fun q => q.frame.flags) = [6] := by
  decide +kernel

/-- A fall of DRIVE_EN that has lasted 1 ms takes the junction to DARK with cause DRIVE_OFF (R96, R181). -/
theorem test_drive_en_fall :
    let s := after (.driveEnFall ⟨1000, 1000⟩) run
    s.seq.mode = .dark ∧ s.fallback.cause.cause = .driveOff ∧ s.groups[0].aspect = .dark ∧
      s.alarms.list.map (fun e => e.code) = [.driveOff] := by decide +kernel

/-- A shorter pulse only shows in the present level of the identity window (R181). -/
theorem test_drive_en_pulse :
    let s := after (.driveEnFall ⟨1000, 999⟩) run
    s.seq.mode = .run ∧ s.drive.driveEn = true ∧ s.peekByte 8 = 0 ∧ run.peekByte 8 = 1 := by decide +kernel

/-- RESET held low keeps the part in reset: it ends 10 ms after the return high (R181). -/
theorem test_reset_held :
    let s := after (.powerOnReset ⟨0, 5000⟩) run
    (after (.resetEnd 14999 3 true true) s).phase = .powerOn 5000 ∧ (after (.resetEnd 15000 3 true true) s).phase = .notInReset := by
  decide +kernel

/-- In a RELEASED rest a demand makes the scan of the current plan, and a pending plan goes on waiting (R109, R115). -/
theorem test_released_rest_scans :
    let s := (runAt (fun q => { q with step := .rest, force := .released, pendingPlan := some 0 })).demandEvent 0
    s.seq.pointer = 1 ∧ s.seq.stage = some 1 ∧ s.seq.pendingPlan = some 0 := by decide +kernel

/-- Evidence of three groups, A conflicting with B and with C. -/
def threeEvident : State :=
  { run with
    mgmt := { run.mgmt with active := some (Memory.write demo 320 6) }
    groups := Vector.ofFn (fun g => { run.groups[g] with evidence := decide (g.val < 3) }) }

/-- At a swap each pair is a conflict of its own: the second finds the latch set and takes FLASH to DARK (R158, R159). -/
theorem test_second_pair_darkens :
    let s := threeEvident.swapConflicts
    s.fallback.detected = [1, 2] ∧ s.fallback.cause.subject = 2 ∧ s.seq.mode = .dark ∧
      (threeEvident.conflictDetected [1]).seq.mode = .flash := by decide +kernel

/-- A PEEK of the identity window reads the part's letters and the own identity (11.2). -/
theorem test_peek_identity :
    (after (.peek 0 env [0, 0, 6, 0, 0, 0, 0, 0, 0]) run).ring.transit.map (fun q => (q.frame.dest, q.frame.payload)) =
      [(0x40, [0, 0, 6, 0x4A, 0x38, 0x32, 0x34, 1, 0x40])] := by decide +kernel

/-! ### Witnesses: what hands on a frame -/

/-- A DEMAND frame of loop card 0x11 naming D0 and D8. -/
def demandFrame : Frame := { kind := 2, flags := 0, dest := 1, src := 0x11, seq := 0, tally := 2, payload := [1, 1] }

/-- The state that has collected the bytes of a frame. -/
def collected (f : Frame) : State := ringAt (fun r => { r with reception := .collecting f.bytes false })

/-- The end marker of a collected good frame hands it on. -/
theorem test_witness_hands_end_marker : Hands (.endMarker 0) (collected demandFrame) demandFrame :=
  Or.inr ⟨0, demandFrame.bytes, rfl, rfl, rfl, by decide +kernel, by decide +kernel⟩

/-- A whole-frame command hands on its frame in every receiving state. -/
theorem test_witness_hands_command (s : State) (h : Receiving s) (e : Env) (p : List Byte) (hp : p.length ≤ 48) :
    Hands (.echo 0 e p) s (envFrame kindEcho e p) :=
  Or.inl ⟨h, rfl, hp⟩

/-- The supervisor's frames reach the J824 in every state that receives like the junction, whatever the rest of it holds. -/
theorem test_witness_reaches (s : State) (hp : s.phase = .notInReset) (hr : s.ring = run.ring) (hm : s.mgmt = run.mgmt) :
    Receiving s ∧ Reaches (received 0 s) env ∧ FromSupervisor (received 0 s) env := by
  cases s
  simp only at hp hr hm
  subst hp hr hm
  exact ⟨⟨rfl, (by decide : LineState.up ≠ LineState.down)⟩,
    ⟨(by decide : (0 : Nat) < 4), (by decide +kernel : env.src ≠ run.ownId), by decide,
      Or.inl (by decide +kernel : run.destIsOwn env.dest = true), by decide⟩,
    (by decide +kernel : env.src = cfgSupervisorId run.cfg)⟩

/-- So does a CALL. -/
theorem test_witness_calls (i : Instr) (s : State) (args : List Byte) (hi : i.dt = 0) (hp : s.phase = .notInReset)
    (hr : s.ring = run.ring) (hm : s.mgmt = run.mgmt) (ha : args.length ≤ 47) : CallReaches i s env args := by
  obtain ⟨h1, h2, h3⟩ := test_witness_reaches s hp hr hm
  exact ⟨h1, ha, hi ▸ h2, hi ▸ h3⟩

/-! ### Witnesses: step, reset, clock -/

theorem test_witness_StepRunsFrontCommand : { run with pending := [.stall 5] }.pending = [.stall 5] := rfl

/-- A command that is none of the exceptions, from the junction in RUN. -/
theorem test_witness_OtherBlocksUntouched :
    exec (.stall 5) run = .next (elapse 5 run) ∧ isReset (.stall 5) = false ∧ bringsFrame (.stall 5) = false ∧
    fromLine (.stall 5) = false ∧ (∀ dt, Instr.stall 5 ≠ .imageWriteEnd dt) ∧ (∀ dt, Instr.stall 5 ≠ .maskWriteEnd dt) ∧
    (∀ dt, Instr.stall 5 ≠ .cabinetClockTick dt) ∧ (∀ dt, Instr.stall 5 ≠ .transmissionStart dt) ∧
    (∀ dt, Instr.stall 5 ≠ .keepAliveMark dt) ∧ (∀ dt, Instr.stall 5 ≠ .markEnd dt) ∧
    (∀ dt, Instr.stall 5 ≠ .transmissionEnd dt) ∧ (∀ dt, Instr.stall 5 ≠ .insertionAttempt dt) ∧
    (∀ dt levels, Instr.stall 5 ≠ .contactSample dt levels) ∧ (∀ dt lasted, Instr.stall 5 ≠ .driveEnFall ⟨dt, lasted⟩) ∧
    (∀ dt lasted, Instr.stall 5 ≠ .driveEnRise ⟨dt, lasted⟩) ∧ (∀ dt, Instr.stall 5 ≠ .flashPhaseEdge dt) ∧
    (∀ dt values, Instr.stall 5 ≠ .halfCycleMark dt values) ∧ (∀ dt, Instr.stall 5 ≠ .mainsLost dt) :=
  ⟨rfl, rfl, rfl, rfl, nofun, nofun, nofun, nofun, nofun, nofun, nofun, nofun, nofun, nofun, nofun, nofun, nofun, nofun⟩

/-- The junction in a reset. -/
def inReset (p : ResetPhase) : State := { run with phase := p }

theorem test_witness_ResetInProgressActsOnNothing :
    (inReset (.powerOn 0)).phase ≠ .notInReset ∧ (inReset (.station 0)).phase ≠ .notInReset ∧
    (∀ dt held, Instr.stall 5 ≠ .powerOnReset ⟨dt, held⟩) ∧ (∀ dt ident bench drive, Instr.stall 5 ≠ .resetEnd dt ident bench drive) ∧
    (∀ dt, Instr.stall 5 ≠ .cabinetClockTick dt) :=
  ⟨by decide, by decide, nofun, nofun, nofun⟩

/-- The junction with another Management Unit. -/
def mgmtAt (f : Management → Management) : State := { run with mgmt := f run.mgmt }

/-- The junction whose STATION_RESET has been carried. -/
def resetCarried : State := mgmtAt (fun m => { m with stationReset := .taken true })

theorem test_witness_ResetsWipe :
    (resetCarried.phase = .notInReset ∧ resetCarried.mgmt.stationReset = .taken true ∧ resetCarried.mgmt.store = .idle) ∧
    run.phase = .notInReset ∧ ¬ (run.mgmt.stationReset = .taken true ∧ run.mgmt.store = .idle) := by decide

/-- The junction in a reset, its configuration in the store. -/
def storedIn (p : ResetPhase) : State :=
  { inReset p with nv := { run.nv with imageMarker := true, imageCheckMatches := true, image := demo } }

theorem test_witness_ResetEndLoads :
    (inReset (.powerOn 0)).phase = .powerOn 0 ∧ (inReset (.station 0)).phase = .station 0 ∧ 0 + 10000 ≤ run.now + 10000 ∧
    run.now + 9999 < 0 + 10000 ∧
    (after (.resetEnd 10000 3 true true) (inReset (.station 0))).mgmt.active = none ∧
    (after (.resetEnd 10000 3 true false) (storedIn (.powerOn 0))).mgmt.active ≠ none ∧
    (after (.resetEnd 10000 3 true true) (storedIn (.station 0))).mgmt.active ≠ none ∧
    (after (.resetEnd 10000 3 true true) (storedIn (.station 0))).groups[0].kind ≠ .unused := by decide +kernel

theorem test_witness_ClockCountsSeconds :
    (run.phase = .notInReset ∧ run.seq.clockSince + 1000000 ≤ run.now + 1000000) ∧
    (inReset (.station 7)).phase = .station 7 ∧ (inReset (.powerOn 7)).phase = .powerOn 7 ∧
    run.now + 999999 < run.seq.clockSince + 1000000 := by decide

/-! ### Witnesses: the send side -/

/-- The junction with RING OUT busy. -/
def outAt (o : OutPort) : State := ringAt (fun r => { r with out := o })

/-- The junction with a frame in the transit queue. -/
def oneQueued : State := ringAt (fun r => { r with transit := [⟨demandFrame, true⟩] })

theorem test_witness_RingOutSends :
    run.phase = .notInReset ∧ (run.ring.out = .idle ∧ run.ring.idleSince + 4000 ≤ run.now + 4000) ∧
    ((outAt (.mark 8)).ring.out = .mark 8 ∧ 8 ≤ (outAt (.mark 8)).now + 8) ∧
    (oneQueued.ring.out = .idle ∧ oneQueued.ring.transit = ⟨demandFrame, true⟩ :: []) ∧
    (outAt (.frame demandFrame 0 false 104)).ring.out = .frame demandFrame 0 false 104 ∧
    (let s := { outAt (.frame demandFrame 0 true 104) with mgmt := { run.mgmt with stationReset := .taken false } }
     s.ring.out = .frame demandFrame 0 true 104 ∧ 104 ≤ s.now + 104 ∧ s.mgmt.stationReset = .taken false) := by decide

/-- A mark is a 1.2 µs pulse for its byte time; a frame shows its start marker, its bytes and its end marker for 8 µs each (R1). -/
theorem test_ring_out_symbols :
    run.ringOut = none ∧ (outAt (.mark (run.now + 8))).ringOut = some ⟨.normal, .mark 1200⟩ ∧ (outAt (.mark run.now)).ringOut = none ∧
    [0, 7, 8, 16, 88, 96, 103, 104].map (OutPort.frame demandFrame demandFrame.check false 104).lineSymbol =
      [some ⟨.normal, .startMarker⟩, some ⟨.normal, .startMarker⟩, some ⟨.normal, .data 2⟩, some ⟨.normal, .data 0⟩,
       some ⟨.normal, .data (loByte demandFrame.check)⟩, some ⟨.normal, .endMarker⟩, some ⟨.normal, .endMarker⟩, none] := by
  decide +kernel

/-- The junction with one own notice waiting. -/
def noticeAt (deferrals : Nat) (f : RingPort → RingPort) : State :=
  ringAt (fun r => f { r with insertion := [⟨demandFrame, deferrals⟩], nextAttempt := some 0 })

theorem test_witness_InsertionAttempts :
    (let s := noticeAt 0 id
     s.phase = .notInReset ∧ s.ring.insertion = ⟨demandFrame, 0⟩ :: [] ∧ s.ring.nextAttempt = some 0 ∧ 0 ≤ s.now + 0 ∧
       s.ring.transit = [] ∧ s.ring.out = .idle ∧ s.ring.reception = .waiting) ∧
    (let s := noticeAt 10 (fun r => { r with out := .mark 8 })
     s.ring.insertion = ⟨demandFrame, 10⟩ :: [] ∧ ¬ (s.ring.transit = [] ∧ s.ring.out = .idle ∧ s.ring.reception = .waiting) ∧
       (10 : Nat) + 1 < 12) ∧
    (let s := noticeAt 11 (fun r => { r with reception := .collecting [] false })
     s.ring.insertion = ⟨demandFrame, 11⟩ :: [] ∧ ¬ (s.ring.transit = [] ∧ s.ring.out = .idle ∧ s.ring.reception = .waiting) ∧
       (12 : Nat) ≤ 11 + 1) := by decide

theorem test_witness_NoticeQueued :
    (ringAt (fun r => { r with insertion := List.replicate 7 ⟨demandFrame, 0⟩ })).ring.insertion.length < 8 ∧
    8 ≤ (ringAt (fun r => { r with insertion := List.replicate 8 ⟨demandFrame, 0⟩ })).ring.insertion.length := by decide

/-- A raise with a notice, one that a mask keeps back, and a stage end. -/
theorem test_notices_handed :
    (run.raise .stall 3).ring.insertion.map (fun e => e.frame.payload) = [[1, 10, 3, 0, 0, 0, 0, 1]] ∧
    ((mgmtAt (fun m => { m with active := some (Memory.write demo 0xD00 2) })).raise .stall 3).ring.insertion = [] ∧
    (run.stageEnd 1).ring.insertion.map (fun e => e.frame.payload) = [[3, 0, 2, 0, 0, 0, 0]] := by decide +kernel

/-! ### Witnesses: the receive side -/

/-- A line that is SEEKING after `run` marks, the last at 0. -/
def seekingAt (run : Nat) : State := lineAt (fun l => { l with state := .seeking, markRun := run, lastMark := some 0 })

theorem test_witness_ValidMarks :
    run.phase = .notInReset ∧ run.ring.reception = .waiting ∧
    ¬ (800 ≤ 799 ∧ 799 ≤ 1600) ∧ ¬ (800 ≤ 1601 ∧ 1601 ≤ 1600) ∧ (800 ≤ 800 ∧ 1600 ≤ 1600) ∧
    (lineAt (fun l => { l with state := .down })).ring.line.state = .down ∧ run.ring.line.state = .up ∧
    (let s := lineAt (fun l => { l with state := .seeking }); s.ring.line.state = .seeking ∧ s.ring.line.lastMark = none) ∧
    (let s := seekingAt 1
     s.ring.line.state = .seeking ∧ s.ring.line.lastMark = some 0 ∧ 2000 ≤ s.now + 2000 - 0 ∧ s.now + 8000 - 0 ≤ 8000 ∧
       s.ring.line.markRun + 1 < 3) ∧
    3 ≤ (seekingAt 2).ring.line.markRun + 1 ∧
    ¬ (2000 ≤ run.now + 1999 - 0 ∧ run.now + 1999 - 0 ≤ 8000) ∧ ¬ (2000 ≤ run.now + 8001 - 0 ∧ run.now + 8001 - 0 ≤ 8000) := by
  decide

/-- A mark of either sense while a frame is collected and in discarding, in UP and in SEEKING; an inverted mark beside the window. -/
theorem test_witness_marks_while_receiving :
    (let s := ringAt (fun r => { r with reception := .collecting [1] false })
     s.phase = .notInReset ∧ s.ring.line.state = .up ∧ s.ring.reception = .collecting [1] false ∧
       (after (.validMark 0 1200) s).ring.reception = .collecting [1] true ∧
       (after (.invertedMark 0 700) s).ring.reception = .collecting [1] true) ∧
    (let s := ringAt (fun r => { r with reception := .discarding 0 })
     s.ring.reception = .discarding 0 ∧ s.ring.line.state = .up ∧
       (after (.validMark 5 1200) s).ring.reception = .discarding 5 ∧ (after (.invertedMark 5 1200) s).ring.reception = .discarding 5 ∧
       (after (.invertedStartMarker 5) s).ring.reception = .discarding 5) ∧
    ¬ (800 ≤ 799 ∧ 799 ≤ 1600) ∧ ¬ (800 ≤ 1601 ∧ 1601 ≤ 1600) ∧ (800 ≤ 800 ∧ 800 ≤ 1600) ∧ (800 ≤ 1600 ∧ 1600 ≤ 1600) := by
  decide +kernel

theorem test_witness_InvertedSymbols :
    run.phase = .notInReset ∧ (run.ring.reception = .waiting ∧ run.ring.line.state = .up) ∧
    (let s := lineAt (fun l => { l with state := .down, invertedMarks := 1 })
     s.ring.reception = .waiting ∧ s.ring.line.state ≠ .up ∧ s.ring.line.invertedMarks + 1 < 3) ∧
    (let s := lineAt (fun l => { l with state := .seeking, invertedMarks := 2 })
     s.ring.reception = .waiting ∧ s.ring.line.state ≠ .up ∧ 3 ≤ s.ring.line.invertedMarks + 1) ∧
    (∀ t, run.ring.reception ≠ .discarding t) ∧
    (lineAt (fun l => { l with state := .down })).ring.line.state = .down ∧
    (seekingAt 1).ring.line.state = .seeking ∧ (∀ bytes bad, (seekingAt 1).ring.reception ≠ .collecting bytes bad) ∧
    (let s := ringAt (fun r => { r with line := (seekingAt 1).ring.line, reception := .collecting [1] false })
     s.ring.line.state = .seeking ∧ s.ring.reception = .collecting [1] false) :=
  ⟨rfl, ⟨rfl, rfl⟩, by decide, by decide, nofun, rfl, rfl, nofun, by decide⟩

theorem test_witness_FramesCollected :
    run.phase = .notInReset ∧ (lineAt (fun l => { l with state := .down })).ring.line.state = .down ∧
    run.ring.line.state ≠ .down ∧ (∀ bytes bad, run.ring.reception ≠ .collecting bytes bad) ∧
    (ringAt (fun r => { r with reception := .collecting [1] false })).ring.reception = .collecting [1] false ∧
    (List.replicate 56 (0 : Byte)).length + 1 < 58 ∧ 58 ≤ (List.replicate 57 (0 : Byte)).length + 1 ∧
    (let s := ringAt (fun r => { r with reception := .discarding 0 })
     s.ring.reception = .discarding 0 ∧ 0 + 64 ≤ s.now + 64) :=
  ⟨rfl, rfl, by decide, nofun, rfl, by decide, by decide, by decide⟩

theorem test_witness_SilenceTakesLineDown :
    run.phase = .notInReset ∧
    ((seekingAt 0).ring.line.state = .seeking ∧ (seekingAt 0).ring.line.lastActivity + 8000 ≤ (seekingAt 0).now + 8000) ∧
    (run.ring.line.state = .up ∧ run.ring.line.lastActivity + 20000 ≤ run.now + 20000) := by decide

/-- One frame for each of the four errors at an end marker. -/
theorem test_witness_FramesValidated :
    (ringAt (fun r => { r with reception := .collecting [] false })).ring.reception = .collecting [] false ∧
    frameError (List.replicate 8 0) false = some .runt ∧
    frameError [2, 0, 1, 0x11, 0, 2, 1, 0, 0] false = some .lengthBad ∧
    frameError [2, 0, 1, 0x11, 0, 2, 0, 0, 0] false = some .crcBad ∧
    frameError demandFrame.bytes true = some .symbolBad := by decide +kernel

theorem test_witness_SentFramesReadBack : { demandFrame with payload := List.replicate 48 0 }.payload.length ≤ 48 := by decide

/-- The junction with k frames in the transit queue, collecting a frame. -/
def queuedAt (k : Nat) (f : Frame) : State :=
  ringAt (fun r => { r with transit := List.replicate k ⟨demandFrame, false⟩, reception := .collecting f.bytes false })

/-- The end marker of a good frame hands it on, whatever waits in the transit queue. -/
theorem test_witness_hands_queued (k : Nat) (f : Frame) (h1 : frameError f.bytes false = none)
    (h2 : parseFrame f.bytes = some f) : Hands (.endMarker 0) (queuedAt k f) f :=
  Or.inr ⟨0, f.bytes, rfl, rfl, rfl, h1, h2⟩

theorem test_witness_GoodFramesArrive :
    run.ring.line.state = .up ∧ ((seekingAt 0).ring.line.state = .seeking ∧ (seekingAt 0).ring.line.goodFrames = 0) ∧
    1 ≤ (lineAt (fun l => { l with state := .seeking, goodFrames := 1 })).ring.line.goodFrames ∧
    (frameOf (.echo 0 env []) = some (envFrame kindEcho env []) ∧ run.phase = .notInReset ∧
      (lineAt (fun l => { l with state := .down })).ring.line.state = .down) ∧
    Hands (.endMarker 0) (queuedAt 4 demandFrame) demandFrame ∧
    4 ≤ (received 0 (queuedAt 4 demandFrame)).ring.transit.length :=
  ⟨rfl, ⟨rfl, rfl⟩, by decide, ⟨rfl, rfl, rfl⟩,
    test_witness_hands_queued 4 demandFrame (by decide +kernel) (by decide +kernel), by decide +kernel⟩

/-- An ECHO that arrives symbol by symbol, and its whole-frame command; a CALL that names no command, one with no payload. -/
theorem test_witness_end_marker_answers :
    (let f := envFrame kindEcho env [7]
     Receiving (queuedAt 0 f) ∧ frameOf (.echo 0 env [7]) = some f ∧ f.payload.length ≤ 48 ∧ Hands (.endMarker 0) (queuedAt 0 f) f ∧
       after (.endMarker 0) (queuedAt 0 f) = after (.echo 0 env [7]) (queuedAt 0 f)) ∧
    (let f := envFrame 0x01 env [11]
     Hands (.endMarker 0) (queuedAt 0 f) f ∧ (after (.endMarker 0) (queuedAt 0 f)).ring.transit.map (fun q => q.frame.flags) = [4]) ∧
    (let f := envFrame 0x01 env []
     Hands (.endMarker 0) (queuedAt 0 f) f ∧ (after (.endMarker 0) (queuedAt 0 f)).ring.transit.map (fun q => q.frame.flags) = [4]) ∧
    (0x0A : Nat) < (11 : Byte).toNat :=
  ⟨⟨⟨rfl, (by decide : LineState.up ≠ LineState.down)⟩, rfl, by decide, test_witness_hands_queued _ _ (by decide +kernel) (by decide +kernel),
      by decide +kernel⟩,
    ⟨test_witness_hands_queued _ _ (by decide +kernel) (by decide +kernel), by decide +kernel⟩,
    ⟨test_witness_hands_queued _ _ (by decide +kernel) (by decide +kernel), by decide +kernel⟩, by decide⟩

/-! ### Witnesses: classification and management frames -/

/-- A DEMAND frame of loop card 0x11 as the junction receives it, with another header or payload. -/
def hears (e : Env) (p : List Byte) (kind : Byte) : Frame := envFrame kind e p

theorem test_witness_OwnReturnStripped :
    let f := hears { env with src := 0x40 } [] kindEcho
    Hands (.endMarker 0) (queuedAt 3 f) f ∧ (received 0 (queuedAt 3 f)).ring.transit.length < 4 ∧ f.src = (queuedAt 3 f).ownId :=
  ⟨test_witness_hands_queued _ _ (by decide +kernel) (by decide +kernel), by decide +kernel, by decide +kernel⟩

theorem test_witness_TallyExpired :
    let f := hears { env with tally := 16 } [] kindEcho
    Hands (.endMarker 0) (queuedAt 3 f) f ∧ (received 0 (queuedAt 3 f)).ring.transit.length < 4 ∧
      f.src ≠ (queuedAt 3 f).ownId ∧ 16 ≤ f.tally.toNat :=
  ⟨test_witness_hands_queued _ _ (by decide +kernel) (by decide +kernel), by decide +kernel, by decide +kernel, by decide⟩

/-- A frame of tally 15 meets steps 3 and 4. -/
theorem test_witness_OtherFramesClassified :
    let s := queuedAt 3 demandFrame
    let marked := hears { env with flags := 1, tally := 15 } [] kindEcho
    let foreign := hears { env with src := 9 } [] kindEcho
    let other := hears { env with src := 0x11, dest := 0x30 } [1, 1] 9
    let quiet := hears { env with src := 0x11 } [1] 2
    let none_ := hears { env with src := 0x11 } [0, 0] 2
    (Hands (.endMarker 0) (queuedAt 3 marked) marked ∧ (received 0 (queuedAt 3 marked)).ring.transit.length < 4 ∧
      marked.src ≠ s.ownId ∧ marked.tally.toNat < 16 ∧ s.isManagement marked = true ∧ marked.flags &&& 0x07 ≠ 0) ∧
    (let far := { foreign with dest := 0x30 }; s.isManagement far = false ∧ (List.range 16).find? (s.entryMatches far) = none) ∧
    (s.isManagement other = false ∧ (List.range 16).find? (s.entryMatches other) = some 1 ∧ cfgEntryByte s.cfg 1 4 = 2) ∧
    (s.isManagement demandFrame = false ∧ (List.range 16).find? (s.entryMatches demandFrame) = some 0 ∧
      cfgEntryByte s.cfg 0 4 = 1 ∧ demandFrame.kind = 2 ∧ demandFrame.payload[(cfgEntryByte s.cfg 0 5).toNat]? = some 1 ∧
      demandFrame.payload[(cfgEntryByte s.cfg 0 5).toNat + 1]? = some 1 ∧
      halfOf 1 1 &&& halfOf (cfgEntryByte s.cfg 0 6) (cfgEntryByte s.cfg 0 7) ≠ 0) ∧
    ((List.range 16).find? (s.entryMatches quiet) = some 0 ∧ quiet.payload.length ≤ (cfgEntryByte s.cfg 0 5).toNat + 1) ∧
    ((List.range 16).find? (s.entryMatches none_) = some 0 ∧ halfOf 0 0 &&& halfOf (cfgEntryByte s.cfg 0 6) (cfgEntryByte s.cfg 0 7) = 0) ∧
    (let p := hears { env with src := 0x12 } [] 2
     (List.range 16).find? (s.entryMatches p) = some 2 ∧ cfgEntryByte s.cfg 2 4 = 0) :=
  ⟨⟨test_witness_hands_queued _ _ (by decide +kernel) (by decide +kernel), by decide +kernel, by decide +kernel,
      by decide, by decide +kernel, by decide +kernel⟩, by decide +kernel, by decide +kernel, by decide +kernel, by decide +kernel,
    by decide +kernel, by decide +kernel⟩

/-- The own identity, the alias 0x20, BROADCAST and another station; an entry of each dest class. -/
theorem test_own_dests_and_entries :
    let f (dest : Byte) : Frame := hears { env with src := 0x11, dest := dest } [] kindEcho
    [0x40, 0x20, 0xFF, 0x30].map (fun d => (run.destIsOwn d, run.isManagement (f d), run.isManagement { f d with kind := 2 })) =
      [(true, true, false), (true, true, false), (false, true, false), (false, false, false)] ∧
    (cfgEntryByte run.cfg 0 3).toNat ≤ 3 ∧
    [0, 1, 2, 3].map (fun c =>
      let s := mgmtAt (fun m => { m with active := some (Memory.write demo 2827 (BitVec.ofNat 8 c)) })
      [0x40, 0x20, 0xFF, 0x30].map (fun d => s.entryMatches (f d) 1)) =
      [[true, true, false, false], [false, false, true, false], [false, false, false, true], [true, true, true, true]] := by
  decide +kernel

theorem test_witness_CallRefusedForSource :
    let e := { env with src := 5 }
    Receiving run ∧ ([] : List Byte).length ≤ 47 ∧ frameOf (.hold 0 e []) = some (callFrame e 3 []) ∧
      Reaches (received 0 run) e ∧ ¬ FromSupervisor (received 0 run) e :=
  ⟨(test_witness_reaches run rfl rfl rfl).1, by decide, rfl,
    ⟨(by decide : (0 : Nat) < 4), (by decide +kernel : (5 : Byte) ≠ run.ownId), by decide,
      Or.inl (by decide +kernel : run.destIsOwn env.dest = true), by decide⟩,
    (by decide +kernel : (5 : Byte) ≠ cfgSupervisorId run.cfg)⟩

/-- The conditions on the payloads of ECHO, PEEK and LOAD; the frames reach the J824 by test_witness_reaches. -/
theorem test_witness_EchoAnswered :
    cfgEchoCheck (received 0 run).cfg = true ∧ cfgEchoCheck (received 0 (mgmtAt (fun m => { m with active := none }))).cfg = false ∧
    (∀ i b, ([7, 6] : List Byte)[i]? = some b → b = BitVec.ofNat 8 i ^^^ env.seq) ∧
    ¬ (∀ i b, ([0] : List Byte)[i]? = some b → b = BitVec.ofNat 8 i ^^^ env.seq) := by
  refine ⟨by decide +kernel, by decide +kernel, ?_, fun h => absurd (h 0 0 rfl) (by decide)⟩
  intro i b h
  match i, h with
  | 0, h => cases h; decide
  | 1, h => cases h; decide

/-- The longest span, at the end of the staging window. -/
def lastSpan : List Byte := [0x1D, 0xD4, 44] ++ List.replicate 44 0

theorem test_witness_PeekAnswered :
    parseSpan [0, 0, 0] = none ∧ parseSpan [0, 0xFF, 1, 0] = some ({ start := 0xFF, count := 1 }, [0]) ∧
    ({ start := 0xFF, count := 1 } : Span).leaves = false ∧
    parseSpan [0, 0xFF, 2, 0, 0] = some ({ start := 0xFF, count := 2 }, [0, 0]) ∧
    ({ start := 0xFF, count := 2 } : Span).leaves = true ∧
    parseSpan lastSpan = some ({ start := 0x1DD4, count := 44 }, List.replicate 44 0) := by decide +kernel

/-- Spans at the ends of the windows. -/
theorem test_windows :
    (∀ w ∈ windowBounds, ({ start := w.1, count := 44 } : Span).leaves = false ∧ ({ start := w.2, count := 1 } : Span).leaves = false ∧
      ({ start := w.2, count := 2 } : Span).leaves = true) ∧
    ({ start := 0x04C0, count := 1 } : Span).leaves = true ∧ ({ start := 0x3000, count := 1 } : Span).leaves = true := by decide

/-- An alarm entry and no entry as the alarm window shows them; an EMPTY configuration and another as the active window does. -/
theorem test_records_shown :
    shown (run.raise .stall 3) 0x0600 12 = [10, 3, 2, 1, 0, 0, 0, 0, 0, 0, 0, 0] ∧ run.alarms.list[(0 : Nat)]? = none ∧
    run.mgmt.active = some demo ∧ State.reset.mgmt.active = none := by decide +kernel

/-- The boundaries of R46 to R48: the windows, the data of CLEAR_PROVING and CORE_RETEST, the gated controls, a protected block. -/
theorem test_load_boundaries :
    loadOutOfRange { start := 0x00FF, count := 1 } [1] = true ∧ loadOutOfRange { start := 0x01FF, count := 1 } [1] = false ∧
    loadOutOfRange { start := 0x01FF, count := 2 } [1, 1] = true ∧ loadOutOfRange { start := 0x1DFF, count := 1 } [1] = false ∧
    loadOutOfRange { start := 0x1DFF, count := 2 } [1, 1] = true ∧ loadOutOfRange { start := 0x0106, count := 1 } [23] = false ∧
    loadOutOfRange { start := 0x0106, count := 1 } [24] = true ∧ loadOutOfRange { start := 0x0106, count := 2 } [255, 254] = true ∧
    coversGated { start := 0x0101, count := 7 } = false ∧ coversGated { start := 0x0101, count := 8 } = true ∧
    coversGated { start := 0x010B, count := 1 } = false ∧ coversProtected { start := 0x10FF, count := 1 } 2 = false ∧
    coversProtected { start := 0x10FF, count := 2 } 2 = true := by decide

theorem test_witness_LoadRefused :
    parseSpan [0, 0, 0] = none ∧
    (parseSpan [0, 0, 1, 1] = some ({ start := 0, count := 1 }, [1]) ∧ loadOutOfRange { start := 0, count := 1 } [1] = true) ∧
    (let s := mgmtAt (fun m => { m with activation := .pending })
     parseSpan [1, 0, 1, 1] = some ({ start := 0x100, count := 1 }, [1]) ∧ loadOutOfRange { start := 0x100, count := 1 } [1] = false ∧
       coversGated { start := 0x100, count := 1 } = true ∧ (received 0 s).held = true) ∧
    (let s := mgmtAt (fun m => { m with mask := 1 })
     loadOutOfRange { start := 0x1000, count := 1 } [1] = false ∧ coversGated { start := 0x1000, count := 1 } = true ∧
       (received 0 s).held = false ∧ coversProtected { start := 0x1000, count := 1 } (received 0 s).mgmt.mask = true) := by
  decide +kernel

theorem test_witness_LoadStores :
    (Receiving run ∧ Reaches (received 0 run) env) ∧ lastSpan.length ≤ 48 ∧ Memory.wf run.mgmt.staging = true ∧
    parseSpan lastSpan = some ({ start := 0x1DD4, count := 44 }, List.replicate 44 0) ∧ 0x1000 ≤ 0x1DD4 ∧
    0x1DD4 + 44 ≤ 0x1E00 ∧ run.held = false ∧ coversProtected { start := 0x1DD4, count := 44 } run.mgmt.mask = false :=
  ⟨⟨(test_witness_reaches run rfl rfl rfl).1, (test_witness_reaches run rfl rfl rfl).2.1⟩, by decide, by decide +kernel,
    by decide +kernel, by decide, by decide, by decide +kernel, by decide +kernel⟩

/-- A LOAD over COMMIT and the two controls after it, of a valid and of an invalid table. -/
theorem test_witness_LoadStores_controls :
    let p : List Byte := [1, 0, 3, 1, 1, 1]
    let span : Span := { start := 0x100, count := 3 }
    let t := mgmtAt (fun m => { m with staging := [] })
    p.length ≤ 48 ∧ parseSpan p = some (span, [1, 1, 1]) ∧ 0x0100 ≤ span.start ∧ span.start + span.count ≤ 0x0200 ∧
    loadOutOfRange span [1, 1, 1] = false ∧ coversGated span = true ∧ run.held = false ∧ t.held = false ∧
    validate run.mgmt.staging = none ∧ validate t.mgmt.staging = some (7, 0) := by decide +kernel

/-- Such a LOAD commits, retires and clears the counters at once; one that is not valid does none of it (R49, R61). -/
theorem test_controls_in_address_order :
    let f := fun (s : State) => { s with alarms := { s.alarms with lost := 3, overflow := true } }
    let s := after (.load 0 env [1, 0, 3, 1, 1, 1]) (f run)
    let t := after (.load 0 env [1, 0, 3, 1, 1, 1]) (f (mgmtAt (fun m => { m with staging := [] })))
    (s.mgmt.store = .image 0 false ∧ s.alarms.lost = 0 ∧ s.alarms.overflow = false) ∧
    (t.mgmt.store = .idle ∧ t.alarms.lost = 3 ∧ t.alarms.overflow = true ∧ t.mgmt.checkCode = 7) := by decide +kernel

/-! ### Witnesses: controls, store, swap -/

/-- Held and not, valid and not; the frames reach the J824 by test_witness_reaches. -/
theorem test_witness_ControlsAnswered :
    (received 0 (mgmtAt (fun m => { m with activation := .pending }))).held = true ∧ (received 0 run).held = false ∧
    (0 : Byte) ≠ 1 ∧ validate run.mgmt.staging = none ∧
    (let s := mgmtAt (fun m => { m with staging := [] })
     (received 0 s).held = false ∧ validate s.mgmt.staging = some (7, 0)) := by decide +kernel

/-- The frames of a control reach the J824 also in the states above. -/
theorem test_witness_reaches_mgmt :
    let s := mgmtAt (fun m => { m with activation := .pending })
    let t := mgmtAt (fun m => { m with staging := [] })
    (Receiving s ∧ Reaches (received 0 s) env) ∧ (Receiving t ∧ Reaches (received 0 t) env) :=
  ⟨⟨⟨rfl, (by decide : LineState.up ≠ LineState.down)⟩, (by decide : (0 : Nat) < 4), (by decide +kernel : env.src ≠ run.ownId),
      by decide, Or.inl (by decide +kernel : run.destIsOwn env.dest = true), by decide⟩,
    ⟨rfl, (by decide : LineState.up ≠ LineState.down)⟩, (by decide : (0 : Nat) < 4), (by decide +kernel : env.src ≠ run.ownId),
      by decide, Or.inl (by decide +kernel : run.destIsOwn env.dest = true), by decide⟩

theorem test_witness_ResetAndProtectionAnswered :
    (received 0 run).held = false ∧ (if run.mgmt.bench then (0 : Half) else run.mgmt.mask ||| 0) = run.mgmt.mask ∧
    (if run.mgmt.bench then (1 : Half) else run.mgmt.mask ||| 1) ≠ run.mgmt.mask := by decide +kernel

theorem test_witness_ClearProvingActs :
    (24 ≤ (24 : Byte).toNat ∧ (24 : Byte) ≠ 255) ∧ (24 ≤ (254 : Byte).toNat ∧ (254 : Byte) ≠ 255) ∧ (23 : Byte).toNat < 24 ∧
    (after (.clearProving 0 env 23) run).mgmt.activation = run.mgmt.activation ∧ (23 : Byte).toNat = (23 : CircuitId).val ∧
    (23 : Byte).toNat ≠ (22 : CircuitId).val := by decide +kernel

/-- The junction with the core of C2 OPEN. -/
def openCore : State :=
  { run with
    circuits := run.circuits.set 2 { run.circuits[2] with state := .notProvable }
    cable := { run.cable with cores := run.cable.cores.set 2 { run.cable.cores[2] with state := .opened } } }

theorem test_witness_CoreRetestActs :
    (24 ≤ (24 : Byte).toNat ∧ (24 : Byte) ≠ 255) ∧ (24 ≤ (254 : Byte).toNat ∧ (254 : Byte) ≠ 255) ∧ (2 : Byte).toNat < 24 ∧
    openCore.cable.cores[2].state = .opened ∧ openCore.circuits[2].state = .notProvable ∧
    (after (.coreRetest 0 env 2) openCore).mgmt.activation = openCore.mgmt.activation := by decide +kernel

/-- The junction with the store busy since 0. -/
def storing (x : Store) (f : Sequencer → Sequencer) : State := { runAt f with mgmt := { run.mgmt with store := x } }

theorem test_witness_StoreWritesEnd :
    (let s := storing (.image 0 true) (fun q => { q with step := .min })
     s.phase = .notInReset ∧ s.mgmt.store = .image 0 true ∧ 0 + 240000 ≤ s.now + 240000 ∧ s.seq.mode = .run ∧
       s.seq.step = .min ∧ s.scanner.mains = .present) ∧
    ((storing (.image 0 false) (fun q => { q with step := .enter })).seq.step = .enter) ∧
    ((storing (.image 0 false) (fun q => { q with mode := .dark })).seq.mode = .dark) ∧
    ((storing (.image 0 false) (fun q => { q with mode := .flash })).seq.mode = .flash) ∧
    ((storing (.image 0 false) (fun q => { q with mode := .start })).seq.mode = .start) ∧
    (let s := storing (.image 0 false) id
     s.seq.step = .extend ∧ s.fallback.failRed = .none ∧
       ¬ (∀ g : GroupId, (elapse 240000 s).clearToRed.groups[g].kind ≠ .unused → (elapse 240000 s).clearToRed.groups[g].aspect = .red)) ∧
    (let s := { storing (.image 0 false) (fun q => { q with mode := .allRed, step := .none, stage := none }) with
       groups := run.groups.set 0 { run.groups[0] with aspect := .red } }
     s.seq.mode = .allRed ∧
       ∀ g : GroupId, (elapse 240000 s).clearToRed.groups[g].kind ≠ .unused → (elapse 240000 s).clearToRed.groups[g].aspect = .red) ∧
    ((storing (.image 0 false) (fun q => { q with step := .rest })).seq.step = .rest) ∧
    (let s := storing (.image 0 false) (fun q => { q with mode := .failRed })
     s.seq.mode = .failRed ∧ s.scanner.mains = .present ∧
       ¬ (∀ g : GroupId, s.groups[g].aspect = .red ∨ s.groups[g].aspect = .dark) ∧
       (∀ g : GroupId, (s.groups.set 0 { run.groups[0] with aspect := .red })[g].aspect = .red ∨
         (s.groups.set 0 { run.groups[0] with aspect := .red })[g].aspect = .dark)) ∧
    (let s := storing (.mask 0) id
     s.phase = .notInReset ∧ s.mgmt.store = .mask 0 ∧ 0 + 20000 ≤ s.now + 20000) := by decide +kernel

/-- The junction DARK for want of a configuration. -/
def darkEmpty (drive : Bool) : State :=
  { runAt (fun q => { q with mode := .dark }) with
    drive := { run.drive with driveEn := drive }
    fallback := { run.fallback with cause := { cause := .configEmpty, subject := 255, time := 0 } } }

/-- Where the swap is made at once: no fail-red timer waits, mains is PRESENT. -/
theorem test_witness_StoreWritesEnd_swap :
    (storing (.image 0 false) (fun q => { q with mode := .start })).scanner.mains = .present ∧
    (storing (.image 0 false) (fun q => { q with mode := .start })).fallback.failRed ≠ .waiting ∧
    (after (.imageWriteEnd 240000) (storing (.image 0 false) (fun q => { q with mode := .start }))).mgmt.activation = .none := by
  decide +kernel

theorem test_witness_SwapTakesForce :
    (∀ (n : CircuitId) (g : GroupId), run.drive.records[n].applied = true → n ∉ cfgLampCircuits (some run.mgmt.staging) g .green) ∧
    run.groups[1].aspect ≠ .green ∧ run.swap.groups[7].kind = .unused ∧ run.swap.groups[0].kind = .vehicle ∧
    run.swap.groups[1].kind = .pedestrian ∧ run.seq.mode = .run ∧
    (∀ m : JunctionMode, (runAt (fun q => { q with mode := m })).seq.mode = m) ∧
    (let s := darkEmpty true
     s.seq.mode = .dark ∧ s.fallback.cause.cause = .configEmpty ∧ s.drive.driveEn = true ∧ s.fallback.latch = false) ∧
    (let s := darkEmpty false; s.seq.mode = .dark ∧ s.fallback.cause.cause = .configEmpty ∧ s.drive.driveEn = false) ∧
    (let s := runAt (fun q => { q with mode := .dark }); s.seq.mode = .dark ∧ s.fallback.cause.cause ≠ .configEmpty) ∧
    (let s := lineAt id
     ∃ e ∈ ({ s with alarms := { s.alarms with list := [AlarmEntry.atReset .configEmpty] } }).swap.alarms.list,
       e.code = .configEmpty ∧ e.subject = 255) := by
  refine ⟨by decide +kernel, by decide +kernel, by decide +kernel, by decide +kernel, by decide +kernel, rfl, fun _ => rfl,
    by decide, by decide, by decide, by decide +kernel⟩

/-- An isolated switch set in FLASH does not outlast the entry to START (R102, log 41). -/
theorem test_start_clears_isolated_switch :
    let s := runAt (fun q => { q with mode := .flash, step := .none, stage := none, control := .isolated, isolatedSwitch := true })
    (after (.resume 0 env []) s).seq.mode = .start ∧ (after (.resume 0 env []) s).seq.isolatedSwitch = false := by decide +kernel

/-! ### Witnesses: CALL commands -/

theorem test_witness_TakenCallsRestartSupervision :
    (run.seq.mode ≠ .run ∨ run.seq.step ≠ .enter) ∧ run.fallback.failRed ≠ .waiting ∧ run.mgmt.activation = .none ∧
    run.scanner.mains = .present := by decide

/-- Settling: a complete and an incomplete change of stage in ENTER; a PENDING activation that is carried out in each mode. -/
theorem test_witness_settling :
    (let s := runAt (fun q => { q with step := .enter })
     s.seq.mode = .run ∧ s.seq.stage = some 0 ∧ s.seq.transfer ≠ .clearing ∧ StageComplete s 0 ∧ ¬ StageComplete s 1) ∧
    (let s := { runAt (fun q => { q with mode := .failRed }) with
       mgmt := { run.mgmt with activation := .pending }, groups := run.groups.set 0 { run.groups[0] with aspect := .red } }
     s.mgmt.activation = .pending ∧ s.seq.mode = .failRed ∧ s.scanner.mains = .present ∧
       ∀ g : GroupId, s.groups[g].aspect = .red ∨ s.groups[g].aspect = .dark) ∧
    (let s := { runAt (fun q => { q with step := .rest, transfer := .clearing }) with
       mgmt := { run.mgmt with activation := .pending }, groups := run.groups.set 0 { run.groups[0] with aspect := .red } }
     Cleared s ∧ s.fallback.failRed ≠ .waiting) ∧
    (let s := { runAt (fun q => { q with mode := .allRed, transfer := .clearing }) with
       mgmt := { run.mgmt with activation := .pending }, groups := run.groups.set 0 { run.groups[0] with aspect := .red } }
     Cleared s) ∧
    (runAt (fun q => { q with mode := .flash })).fallback.failRed ≠ .waiting := by
  unfold StageComplete Cleared
  decide +kernel

/-- Whatever the sequencer holds, each CALL reaches it, so the clauses of the CALL statements need only its fields. -/
theorem test_witness_calls_at (f : Sequencer → Sequencer) (n : Byte) :
    CallReaches (.plan 0 env [n]) (runAt f) env [n] ∧ CallReaches (.force 0 env [n]) (runAt f) env [n] ∧
    CallReaches (.plan 0 env []) (runAt f) env [] ∧ CallReaches (.force 0 env []) (runAt f) env [] ∧
    CallReaches (.hold 0 env []) (runAt f) env [] ∧ CallReaches (.release 0 env []) (runAt f) env [] ∧
    CallReaches (.allRed 0 env []) (runAt f) env [] ∧ CallReaches (.flash 0 env []) (runAt f) env [] ∧
    CallReaches (.dark 0 env []) (runAt f) env [] ∧ CallReaches (.resume 0 env []) (runAt f) env [] ∧
    CallReaches (.callDemand 0 env [n]) (runAt f) env [n] ∧ CallReaches (.callDemand 0 env [n, n]) (runAt f) env [n, n] ∧
    CallReaches (.time 0 env [n, n, n]) (runAt f) env [n, n, n] ∧
    CallReaches (.time 0 env [n, n, n, n]) (runAt f) env [n, n, n, n] := by
  refine ⟨?_, ?_, ?_, ?_, ?_, ?_, ?_, ?_, ?_, ?_, ?_, ?_, ?_, ?_⟩ <;>
    exact test_witness_calls _ _ _ rfl rfl rfl rfl (Nat.le_of_ble_eq_true rfl)

/-- RUN under SUPERVISED, in REST of step 0. -/
def resting : Sequencer → Sequencer := fun q => { q with step := .rest }

theorem test_witness_PlanForceHold :
    (runAt (fun q => { q with transfer := .awaiting })).seq.transfer ≠ .none ∧
    (run.seq.transfer = .none ∧ run.seq.control = .supervised ∧ run.seq.mode = .run) ∧
    (runAt (fun q => { q with control := .isolated })).seq.control = .isolated ∧
    (runAt (fun q => { q with mode := .start })).seq.mode ≠ .run ∧
    (3 < (4 : Byte).toNat ∧ cfgPlanLength run.cfg 3 = 0) ∧ ((0 : Byte).toNat ≤ 3 ∧ 1 ≤ cfgPlanLength run.cfg (0 : Byte).toNat) ∧
    (15 < (16 : Byte).toNat ∧ (15 : Byte).toNat ≤ 15) ∧
    (¬ Resting run ∧ ¬ HeldRest run ∧ Resting (runAt resting) ∧ HeldRest (runAt (fun q => { q with step := .rest, hold := true }))) ∧
    (let s := runAt (fun q => { q with step := .min }); s.seq.step ≠ .extend ∧ s.seq.step ≠ .rest) ∧
    (run.seq.step = .extend ∧ run.seq.stage = some (0 : Byte).toNat ∧ run.seq.stage ≠ some (1 : Byte).toNat) ∧
    (runAt resting).seq.step = .rest := by
  refine ⟨by decide, by decide, rfl, by decide, by decide +kernel, by decide +kernel, by decide, ?_, by decide, by decide, rfl⟩
  unfold Resting HeldRest
  decide

theorem test_witness_ReleaseTaken :
    (runAt (fun q => { q with transfer := .clearing })).seq.transfer ≠ .none ∧
    (let s := runAt (fun q => { q with step := .rest, force := .forced })
     s.seq.transfer = .none ∧ s.seq.force = .forced ∧ s.seq.mode = .run ∧ s.seq.step = .rest) ∧
    (¬ (run.seq.force = .forced ∧ run.seq.mode = .run ∧ run.seq.step = .rest) ∧ run.seq.hold = false) ∧
    (let s := runAt (fun q => { q with hold := true, deadline := some 5 })
     s.seq.hold = true ∧ s.seq.mode = .run ∧ s.seq.step = .extend ∧
       (∀ d, s.seq.deadline = some d → d ≤ (received 500000 s).timeBase) ∧ ¬ (∀ d, s.seq.deadline = some d → d ≤ (received 0 s).timeBase)) ∧
    (let s := runAt (fun q => { q with hold := true, step := .rest })
     s.seq.hold = true ∧ ¬ s.seq.force = .forced ∧ s.seq.mode = .run ∧ s.seq.step = .rest ∧ s.seq.switchKept = false ∧
       s.seq.isolatedSwitch = false) ∧
    (runAt (fun q => { q with hold := true, step := .rest, pendingPlan := some 0, switchKept := true })).seq.switchKept = true := by
  refine ⟨by decide, by decide, by decide, ⟨rfl, rfl, rfl, ?_, ?_⟩, by decide, by decide⟩
  · intro d h
    cases h
    decide
  · intro h
    exact absurd (h 5 rfl) (by decide)

/-- The junction out of normal control in a mode, with the latch and DRIVE_EN as given. -/
def fallenTo (m : JunctionMode) (latch drive : Bool) : State :=
  { runAt (fun q => { q with mode := m }) with
    fallback := { run.fallback with latch := latch }
    drive := { run.drive with driveEn := drive }
    groups := Vector.ofFn (fun g => { run.groups[g] with redStatus := .unproven }) }

/-- RESUME reaches the J824 in those states too, and their red status is what their circuits give. -/
theorem test_witness_resume_reaches (m : JunctionMode) (latch drive : Bool) :
    CallReaches (.resume 0 env []) (fallenTo m latch drive) env [] ∧ RedStatusComputed (fallenTo m latch drive) := by
  refine ⟨test_witness_calls _ _ _ rfl rfl rfl rfl (by decide), ?_⟩
  have h : RedStatusComputed (fallenTo .run false true) := by
    unfold RedStatusComputed
    decide +kernel
  exact h

theorem test_witness_ResumeAnswered :
    (runAt (fun q => { q with transfer := .clearing })).seq.transfer ≠ .none ∧
    (let s := runAt (fun q => { q with mode := .allRed, resumeStep := some 0 })
     s.seq.transfer = .none ∧ s.seq.mode = .allRed ∧ s.seq.resumeStep = some 0) ∧
    (run.seq.mode = .run ∧ run.seq.control = .supervised) ∧
    (let s := runAt (fun q => { q with control := .isolated })
     s.seq.control = .isolated ∧ (received 0 s).ring.line.state = .up ∧ ¬ (s.seq.step = .rest)) ∧
    (received 0 (lineAt (fun l => { l with state := .seeking }))).ring.line.state ≠ .up ∧
    (fallenTo .start false true).seq.mode = .start ∧ (fallenTo .failRed false true).seq.mode = .failRed ∧
    (let s := fallenTo .flash true true; s.seq.mode = .flash ∧ s.fallback.latch = true) ∧
    (let s := fallenTo .dark false false; s.seq.mode = .dark ∧ s.drive.driveEn = false) ∧
    (let s := fallenTo .flash false true
     s.fallback.latch = false ∧ (∀ g : GroupId, s.groups[g].redStatus ≠ .lost) ∧ s.mgmt.active ≠ none ∧
       s.drive.driveEn = true ∧ s.fallbackCondition = true) ∧
    (let s := runAt (fun q => { q with control := .isolated, step := .rest })
     s.seq.mode = .run ∧ s.seq.control = .isolated ∧ s.seq.step = .rest ∧ s.seq.force ≠ .forced ∧ s.seq.hold = false) ∧
    (let s := runAt (fun q => { q with control := .isolated, step := .rest, hold := true })
     s.seq.mode = .run ∧ s.seq.step = .rest ∧ s.seq.force ≠ .forced ∧ s.seq.hold = true) := by
  decide +kernel

/-- ALL_RED, FLASH and DARK reach the J824 with the latch set too. -/
theorem test_witness_AllRedFlashDark (m : JunctionMode) (latch : Bool) :
    CallReaches (.allRed 0 env []) (fallenTo m latch true) env [] ∧ CallReaches (.flash 0 env []) (fallenTo m latch true) env [] ∧
    CallReaches (.dark 0 env []) (fallenTo m latch true) env [] ∧ (fallenTo m latch true).seq.mode = m ∧
    (fallenTo m latch true).fallback.latch = latch :=
  ⟨test_witness_calls _ _ _ rfl rfl rfl rfl (by decide), test_witness_calls _ _ _ rfl rfl rfl rfl (by decide),
    test_witness_calls _ _ _ rfl rfl rfl rfl (by decide), rfl, rfl⟩

theorem test_witness_DemandAndTimeTaken :
    ([1] : List Byte).length < 2 ∧ ([1, 1] : List Byte) = 1 :: 1 :: [] ∧ ([1, 1, 1] : List Byte).length < 4 ∧
    ([0, 0, 14, 16] : List Byte) = 0 :: 0 :: 14 :: 16 :: [] := by decide

/-! ### Witnesses: demand and the sequencer's timers -/

theorem test_witness_DemandEventsAct :
    cfgLineEnabled run.cfg 5 = false ∧ cfgLineEnabled run.cfg 0 = true ∧ cfgLineEnabled run.cfg 8 = true ∧
    ¬ (run.seq.step = .rest) ∧
    (let s := runAt resting
     s.seq.mode = .run ∧ s.seq.step = .rest ∧ s.seq.force ≠ .forced ∧ s.seq.hold = false ∧ s.seq.transfer = .none ∧
       s.demand.register ||| cfgLineStages s.cfg 0 ≠ s.demand.register ∧ s.runningStage = none) ∧
    (runAt (fun q => { q with step := .rest, isolatedSwitch := true })).seq.isolatedSwitch = true ∧
    (run.seq.mode = .run ∧ run.seq.step = .extend ∧ run.runningStage = some 0) ∧
    (runAt (fun q => { q with mode := .allRed })).runningStage = none := by decide +kernel

/-- The junction with contact K0 in a debounce state. -/
def contactAt (c : Contact) (f : Sequencer → Sequencer) : State :=
  { runAt f with demand := { run.demand with contacts := run.demand.contacts.set 0 c } }

theorem test_witness_ContactsAndHeldExtensions :
    (run.demand.nextSample ≤ run.now + 10000 ∧ run.now + 9999 < run.demand.nextSample) ∧
    (let s := contactAt { closed := true, changes := 2 } id
     s.demand.contacts[(0 : ContactId)].closed = true ∧ 2 ≤ s.demand.contacts[(0 : ContactId)].changes) ∧
    (let s := contactAt { closed := false, changes := 2 } id
     s.demand.contacts[(0 : ContactId)].closed = false ∧ 2 ≤ s.demand.contacts[(0 : ContactId)].changes) ∧
    (contactAt { closed := false, changes := 1 } id).demand.contacts[(0 : ContactId)].changes < 2 ∧
    (let s := contactAt { closed := true, changes := 0 } id
     s.heldCondition 0 = true ∧ s.demand.held[(0 : ContactId)] = none) ∧
    (let s := contactAt { closed := true, changes := 0 } id
     let t := { s with demand := { s.demand with held := s.demand.held.set 0 (some 1000000) } }
     t.heldCondition 0 = true ∧ t.demand.held[(0 : ContactId)] = some 1000000 ∧ 1000000 ≤ t.now + 1000000 ∧ t.now + 999999 < 1000000) ∧
    run.heldCondition 0 = false := by decide +kernel

/-- The third closed sample of K0 is a demand event on D8, whose stage 0 joins the register when it is not running (R37, R39). -/
theorem test_contact_demands :
    (after (.contactSample 10000 1) (contactAt { closed := false, changes := 2 } (fun q => { q with stage := some 1 }))).demand.register = 1 ∧
    (after (.contactSample 10000 0) (contactAt { closed := true, changes := 2 } id)).demand.contacts[(0 : ContactId)].closed = false := by
  decide +kernel

theorem test_witness_SupervisionAndStartEnd :
    (run.seq.control = .supervised ∧ run.seq.supervision = some 300 ∧ 300 ≤ (elapse 30000000 run).timeBase ∧
      (elapse 29999999 run).timeBase < 300) ∧
    ((runAt resting).seq.mode = .run ∧ (runAt resting).seq.step = .rest) ∧
    (let s := runAt (fun q => { q with hold := true })
     s.seq.hold = true ∧ s.seq.mode = .run ∧ s.seq.step = .extend ∧ s.seq.deadline = none) ∧ run.seq.hold = false ∧
    (let s := runAt (fun q => { q with mode := .start, startRed := some { load := 60, due := 60 } })
     s.seq.mode = .start ∧ s.seq.startRed = some { load := 60, due := 60 } ∧ 60 ≤ (elapse 6000000 s).timeBase ∧
       (elapse 5999999 s).timeBase < 60) := by decide +kernel

/-- RUN in MIN with the minimum expiry at 60 ds. -/
def inMin (f : Sequencer → Sequencer) : State := runAt (fun q => f { q with step := .min, minExpiry := some 60 })

theorem test_witness_StepTimersEnd :
    (let s := inMin id
     s.phase = .notInReset ∧ s.seq.mode = .run ∧ s.seq.step = .min ∧ s.seq.minExpiry = some 60 ∧
       60 ≤ (elapse 6000000 s).timeBase ∧ (elapse 5999999 s).timeBase < 60 ∧ s.seq.transfer = .none ∧ s.seq.pendingForce = none ∧
       s.seq.force = .none) ∧
    (inMin (fun q => { q with transfer := .awaiting })).seq.transfer = .awaiting ∧
    ((inMin (fun q => { q with pendingForce := some 0 })).seq.pendingForce = some 0 ∧ (inMin id).seq.stage = some 0 ∧
      (inMin id).seq.stage ≠ some 1) ∧
    (inMin (fun q => { q with force := .forced })).seq.force = .forced ∧
    (inMin (fun q => { q with force := .released })).seq.force = .released ∧
    (run.seq.step = .extend ∧ run.seq.hold = false ∧ run.seq.deadline = none) ∧
    (runAt (fun q => { q with hold := true })).seq.hold = true ∧
    (let s := runAt (fun q => { q with deadline := some 1 })
     s.seq.deadline = some 1 ∧ (elapse 99999 s).timeBase < 1 ∧ 1 ≤ (elapse 100000 s).timeBase) := by decide +kernel

/-- A step of the plan qualifies (R108). -/
def qualifies (s : State) (k : Nat) : Bool :=
  !cfgStepDemanded s.cfg s.seq.currentPlan k || setHas s.demand.register (cfgStepStage s.cfg s.seq.currentPlan k)

theorem test_witness_StepEndsChoose :
    (runAt (fun q => { q with transfer := .clearing })).seq.transfer = .clearing ∧ run.seq.transfer ≠ .clearing ∧
    (runAt (fun q => { q with isolatedSwitch := true })).seq.isolatedSwitch = true ∧ run.seq.isolatedSwitch = false ∧
    cfgPlanLength run.cfg 0 = 2 ∧
    (let s := { run with demand := { run.demand with register := 2 } }
     ([1] : List Nat).find? (qualifies s) = some 1 ∧ ([1] : List Nat).filter (fun k => s.seq.pointer < k) = [1]) ∧
    (([1] : List Nat).find? (qualifies run) = none ∧ run.seq.pendingPlan = none) ∧
    (let s := runAt (fun q => { q with pendingPlan := some 0 }); s.seq.pendingPlan ≠ none ∧ s.seq.force = .none) ∧
    (runAt (fun q => { q with force := .released, pendingPlan := some 0 })).seq.force ≠ .none ∧
    (let s := runAt (fun q => { q with pointer := 1 }); ([0] : List Nat).find? (qualifies s) = some 0) ∧
    (run.seq.stage = some (cfgStepStage run.cfg 0 0) ∧ run.seq.stage ≠ some (cfgStepStage run.cfg 0 1)) := by decide +kernel

theorem test_witness_StageChangesBegin :
    run.seq.stage = some 0 ∧
    (let s := runAt (fun q => { q with step := .enter })
     s.seq.mode = .run ∧ s.seq.step = .enter ∧ s.seq.stage = some 0 ∧
       ∀ g : GroupId, (cfgInStage s.cfg 0 g = true → s.groups[g].aspect = .green ∧ s.groups[g].gain = none) ∧
         (cfgInStage s.cfg 0 g = false → s.groups[g].aspect ≠ .amber ∧ s.groups[g].aspect ≠ .greenFlash)) ∧
    (let s := runAt (fun q => { q with step := .enter, stage := some 1 })
     s.seq.stage = some 1 ∧ cfgInStage s.cfg 1 1 = true ∧ s.groups[1].aspect ≠ .green) := by decide +kernel

/-! ### Witnesses: aspects and lamp side -/

/-- The junction with group A (VEHICLE) in another aspect. -/
def aIn (a : Aspect) (f : Group → Group) : State := groupA (fun x => f { x with aspect := a })

/-- The junction with group B (PEDESTRIAN) in another aspect and group A RED. -/
def bIn (a : Aspect) (f : Group → Group) : State :=
  { groupB (fun x => f { x with aspect := a }) with
    groups := ((run.groups.set 0 { run.groups[0] with aspect := .red, redStatus := .proven }).set 1
      (f { run.groups[1] with aspect := a })) }

theorem test_witness_AspectRequests :
    (run.groups[0].kind = .vehicle ∧ run.groups[0].aspect = .green) ∧
    ((bIn .green id).groups[1].kind = .pedestrian ∧ (bIn .green id).groups[1].aspect = .green) ∧
    ((aIn .redAmber id).groups[0].kind ≠ .unused ∧ (aIn .redAmber id).groups[0].aspect = .redAmber) ∧
    (∀ a : Aspect, (aIn a id).groups[0].aspect = a) ∧ run.groups[7].kind = .unused ∧
    (∀ i : GroupId, run.conflicts i 7 = false) ∧ run.conflicts 0 1 = true := by
  refine ⟨by decide +kernel, by decide +kernel, by decide +kernel, fun a => ?_, by decide +kernel, by decide +kernel, by decide +kernel⟩
  cases a <;> decide +kernel

/-- A asks for green at 40 ds, B being RED and PROVEN. -/
def asks (a : Aspect) (timer : Option Timer) : State := aIn a (fun x => { x with gain := some 40, timer := timer })

/-- A is withheld: B's red is not PROVEN. -/
def asksLocked (a : Aspect) (timer : Option Timer) : State :=
  { asks a timer with groups := (asks a timer).groups.set 1 { (asks a timer).groups[1] with redStatus := .unproven } }

/-- B is still in right of way. -/
def asksBlocked (timer : Option Timer) : State :=
  { asks .redAmber timer with groups := (asks .redAmber timer).groups.set 1 { (asks .redAmber timer).groups[1] with aspect := .greenFlash } }

theorem test_witness_AspectTimersAct :
    (let s := asks .red none
     s.groups[0].kind = .vehicle ∧ s.groups[0].aspect = .red ∧ s.groups[0].withheld = false ∧ s.groups[0].gain = some 40 ∧
       40 ≤ (elapse 2000000 s).timeBase + cfgRedAmber s.cfg 0 ∧
       ∀ i : GroupId, s.conflicts i 0 = true → s.groups[i].redStatus = .proven ∧ s.groups[i].evidence = false) ∧
    ¬ (∀ i : GroupId, (asksLocked .red none).conflicts i 0 = true →
      (asksLocked .red none).groups[i].redStatus = .proven ∧ (asksLocked .red none).groups[i].evidence = false) ∧
    (let s := asks .redAmber (some { load := 20, due := 40 })
     s.groups[0].aspect = .redAmber ∧ s.groups[0].timer = some { load := 20, due := 40 } ∧ 40 ≤ (elapse 4000000 s).timeBase ∧
       ∀ i : GroupId, s.conflicts i 0 = true → s.groups[i].aspect.rightOfWay = false) ∧
    ¬ (∀ i : GroupId, (asksBlocked none).conflicts i 0 = true → (asksBlocked none).groups[i].aspect.rightOfWay = false) ∧
    (let s := asks .redAmber (some { load := 20, due := 30 }); (elapse 3000000 s).timeBase < 40 ∧ 30 ≤ (elapse 3000000 s).timeBase) ∧
    (let s := asks .redAmber none
     s.groups[0].kind = .vehicle ∧ s.groups[0].timer = none ∧ s.groups[0].withheld = false ∧ s.groups[0].gain = some 40) ∧
    (let s := bIn .red (fun x => { x with gain := some 40 }); s.groups[1].kind = .pedestrian ∧ s.groups[1].aspect = .red) ∧
    (let s := aIn .amber (fun x => { x with timer := some { load := 30, due := 30 } })
     s.groups[0].aspect = .amber ∧ s.groups[0].timer = some { load := 30, due := 30 }) ∧
    (let s := bIn .greenFlash (fun x => { x with timer := some { load := 50, due := 50 } })
     s.groups[1].aspect = .greenFlash ∧ s.groups[1].timer = some { load := 50, due := 50 }) := by decide +kernel

/-- The release of a withheld group, of each kind; an entry to GREEN that completes ENTER; the last AMBER and the last clearance of a
transfer. -/
theorem test_witness_AspectTimersAct_follows :
    (let s := asks .red none
     let x := { s.groups[0] with withheld := true }
     x.withheld = true ∧ x.kind = .vehicle ∧
       ∀ i : GroupId, s.conflicts i 0 = true → s.groups[i].redStatus = .proven ∧ s.groups[i].evidence = false) ∧
    (let s := bIn .red (fun x => { x with withheld := true })
     s.groups[1].withheld = true ∧ s.groups[1].kind = .pedestrian ∧ (elapse 5000000 s).earliestGreen 1 ≤ (elapse 5000000 s).timeBase ∧
       (elapse 4900000 s).timeBase < (elapse 4900000 s).earliestGreen 1 ∧
       (∀ i : GroupId, s.conflicts i 1 = true → s.groups[i].redStatus = .proven ∧ s.groups[i].evidence = false) ∧
       ∀ i : GroupId, s.conflicts i 1 = true → s.groups[i].aspect.rightOfWay = false) ∧
    (let s := { asks .redAmber (some { load := 20, due := 40 }) with seq := { run.seq with step := .enter } }
     s.seq.transfer ≠ .clearing ∧ s.fallback.failRed ≠ .waiting ∧
       StageComplete { s with groups := s.groups.set 0 { s.groups[0] with aspect := .green, gain := none } } 0 ∧
       (after (.redAmberExpiry 4000000 0) s).seq.step = .min) ∧
    (let s := { aIn .amber (fun x => { x with timer := some { load := 30, due := 30 } }) with
       mgmt := { run.mgmt with activation := .pending }, seq := { run.seq with transfer := .clearing } }
     Cleared { s with groups := s.groups.set 0 { s.groups[0] with aspect := .red } } ∧ (∀ j : GroupId, s.groups[j].gain = none) ∧
       (after (.amberExpiry 3000000 0) s).seq.mode = .start) := by
  unfold StageComplete Cleared
  decide +kernel

theorem test_witness_HalfCycleMarks :
    (let s := { run with drive := { run.drive with records := run.drive.records.set 2 { run.drive.records[2] with applied := true, changedAt := 4294967294 } } }
     s.phase = .notInReset ∧ s.drive.records[2].applied = true ∧ s.scanner.mains ≠ .lost ∧ ¬ 0 < s.scanner.blankSets ∧
       s.drive.halfCycles + 1 - s.drive.records[2].changedAt = 3) ∧
    (∀ p : ProvingState, p.classifies = false → p = .shorted ∨ p = .notProvable ∨ p = .disabled) ∧
    classOf run.cfg 2 2000 = .critical ∧ classOf run.cfg 2 1999 = .high ∧ cfgCoreEnabled run.cfg 2 = true ∧
    cfgCoreEnabled run.cfg 5 = false := by
  refine ⟨by decide, fun p h => ?_, by decide +kernel, by decide +kernel, by decide +kernel, by decide +kernel⟩
  cases p <;> revert h <;> decide

/-- The junction with its lamps in another group B, lockout of C3, flash phase and DRIVE_EN. -/
def lampsAt (b : Aspect) (lockout flash drive : Bool) : State :=
  { run with
    groups := run.groups.set 1 { run.groups[1] with aspect := b }
    drive := { run.drive with
      records := run.drive.records.set 3 { run.drive.records[3] with lockout := lockout }, flashOn := flash, driveEn := drive } }

/-- C3 and C4 are the RED and GREEN circuits of B, C5 is assigned nowhere: commands and targets (R90, R91, R94, R96). -/
theorem test_commands_and_targets :
    (cfgLampCircuits run.cfg 1 .red = [3] ∧ cfgLampCircuits run.cfg 1 .green = [4] ∧ ∀ g a, 5 ∉ cfgLampCircuits run.cfg g a) ∧
    (∀ g a, 3 ∈ cfgLampCircuits run.cfg g a → g = 1 ∧ a = .red) ∧
    ((lampsAt .red false true true).commanded 3 = .on ∧ (lampsAt .red true true true).commanded 3 = .off) ∧
    ((lampsAt .greenFlash false true true).commanded 4 = .flash ∧ (lampsAt .greenFlash false true true).target 4 = true ∧
      (lampsAt .greenFlash false false true).target 4 = false ∧ (lampsAt .red false true false).target 3 = false) ∧
    run.commanded 5 = .off := by
  refine ⟨⟨by decide +kernel, by decide +kernel, ?_⟩, ?_, by decide +kernel, by decide +kernel, by decide +kernel⟩
  · intro g a; cases a <;> revert g <;> decide +kernel
  · intro g a; cases a <;> revert g <;> decide +kernel

/-- A CRITICAL reading of a circuit ON for three half-cycles shorts it and locks it out; a high VOLTAGE reading counts (R129, R147). -/
theorem test_mark_classifies :
    let s := after (.halfCycleMark 10000 (Vector.replicate 24 2000))
      { run with
        drive := { run.drive with records := run.drive.records.set 2 { run.drive.records[2] with applied := true, changedAt := 4294967294 } }
        circuits := run.circuits.set 2 { run.circuits[2] with state := .proven } }
    s.circuits[2].state = .shorted ∧ s.drive.records[2].lockout = true ∧ s.circuits[2].lastCurrent = 2000 := by decide +kernel

/-- The junction with mains LOST: A is GREEN and its GREEN circuit C2 not applied yet. -/
def darkMains : State := { run with scanner := { run.scanner with mains := .lost } }

/-- While mains is lost C2 is switched when its target changes, here found at a flash edge, with the count as it stands; the mark that ends
the loss at that same instant applies the change itself, a later one does not (R94, R126, log 43). -/
theorem test_change_at_the_returning_mark :
    let s := after (.flashPhaseEdge 500000) darkMains
    s.drive.records[2].applied = true ∧ s.drive.records[2].changedAt = 0 ∧
    s.drive.records[2].before = some { instant := 500000, applied := false, changedAt := 0, offSince := 0 } ∧
    (after (.halfCycleMark 0 (Vector.replicate 24 0)) s).drive.records[2].changedAt = 1 ∧
    (after (.halfCycleMark 1 (Vector.replicate 24 0)) s).drive.records[2].changedAt = 0 := by decide +kernel

/-- The junction with DRIVE_EN low and the red of B LOST, under red-loss action FLASH. -/
def lostRed : State :=
  { runAt (fun q => { q with mode := .dark }) with
    drive := { run.drive with driveEn := false }
    groups := run.groups.set 1 { run.groups[1] with redStatus := .lost } }

theorem test_witness_DriveAndMainsEvents_lost :
    (darkMains.scanner.mains = .lost ∧ darkMains.drive.records[2].applied ≠ darkMains.target 2 ∧
      darkMains.drive.records[3].applied ≠ darkMains.target 3 ∧ darkMains.drive.records[5].applied = darkMains.target 5) ∧
    (lostRed.drive.driveEn = false ∧ lostRed.mgmt.active ≠ none ∧ lostRed.fallback.latch = false ∧
      cfgRedLossFlash lostRed.cfg = true ∧ lostRed.groups[1].redStatus = .lost ∧
      ∀ j : GroupId, 1 < j → lostRed.groups[j].redStatus ≠ .lost) ∧
    (after (.driveEnRise ⟨1000, 1000⟩) lostRed).seq.mode = .failRed ∧
    cfgRedLossFlash (mgmtAt (fun m => { m with active := some (Memory.write demo 9 1) })).cfg = false := by decide +kernel

theorem test_witness_DriveAndMainsEvents :
    run.drive.flashSince + 500000 ≤ run.now + 500000 ∧ (run.drive.driveEn = true ∧ EvidenceComputed run) ∧
    (run.drive.pin.level ≠ false ∧ max run.drive.pin.seen (run.now + 1000 - 1000) + 1000 ≤ run.now + 1000 ∧
      run.now + 1000 < max run.drive.pin.seen (run.now + 1000 - 999) + 1000) ∧
    ((fallenTo .dark false false).drive.pin.level = true ∧
      (fallenTo .dark false false).drive.pin.since + 1000 ≤ (fallenTo .dark false false).now + 1000) ∧
    (run.fallback.cause.cause ≠ .configEmpty ∧ run.fallback.latch = false) ∧
    ((darkEmpty true).fallback.cause.cause = .configEmpty ∧ (darkEmpty true).drive.driveEn = true ∧ EvidenceComputed (darkEmpty true)) ∧
    (let s := fallenTo .dark false false
     s.drive.driveEn = false ∧ s.mgmt.active ≠ none ∧ s.fallback.latch = false ∧ ∀ g : GroupId, s.groups[g].redStatus ≠ .lost) ∧
    (let s := fallenTo .dark true false; s.drive.driveEn = false ∧ s.mgmt.active ≠ none ∧ s.fallback.latch = true) ∧
    (State.reset.drive.driveEn = false ∧ State.reset.mgmt.active = none) ∧
    (run.scanner.mains = .present ∧ run.scanner.lastMark + 50000 ≤ run.now + 50000) := by
  unfold EvidenceComputed
  decide +kernel

/-- The junction with another core record of C2. -/
def coreAt (f : CoreRecord → CoreRecord) : State :=
  { run with cable := { run.cable with cores := run.cable.cores.set 2 (f run.cable.cores[2]) } }

/-- The junction with C2's core SOUND and group A RED: its GREEN circuit is commanded OFF. -/
def coreOff (f : CoreRecord → CoreRecord) : State :=
  { coreAt f with groups := (aIn .red id).groups }

theorem test_witness_ProbesClassified :
    (let s := coreOff (fun k => { k with lastProbe := some 0 })
     cfgCoreEnabled s.cfg 2 = true ∧ s.cable.cores[2].state ≠ .crossFeed ∧ s.commanded 2 = .off ∧
       s.drive.records[2].applied = false ∧ s.cable.cores[2].offSince + 10 ≤ (elapse 2000000 s).timeBase ∧
       s.scanner.mains = .present ∧ s.cable.cores[2].probe = none ∧ s.scanner.testing 2 = false ∧
       0 + 20 ≤ (elapse 2000000 s).timeBase) ∧
    (let s := coreAt (fun k => { k with probe := some 0 }); s.cable.cores[2].probe = some 0 ∧ 0 + 1000 ≤ s.now + 1000) ∧
    satInc 2 = 3 ∧ satInc 3 = 4 ∧ satInc 255 = 255 := by decide +kernel

/-- A core into OPEN from LEAKY: CORE_LEAKY clears, CORE_OPEN is raised, the circuit is NOT_PROVABLE; and back (R134, R146, R152). -/
theorem test_core_moves :
    let s := { coreAt (fun k => { k with state := .leaky }) with circuits := run.swap.circuits }.raise .coreLeaky 2
    let t := s.moveCore 2 { s.cable.cores[2] with state := .opened }
    let u := t.moveCore 2 { t.cable.cores[2] with state := .sound }
    t.alarms.list.map (fun e => (e.code, e.active)) = [(.coreLeaky, false), (.coreOpen, true)] ∧ t.circuits[2].state = .notProvable ∧
      u.circuits[2].state = .unproven ∧ u.alarms.list.all (fun e => !e.active) = true := by decide +kernel

theorem test_witness_ProbesClassified_moves :
    (run.swap.circuits[2].state ≠ .disabled ∧ run.swap.circuits[2].state ≠ .notProvable) ∧ run.circuits[2].state = .disabled ∧
    (let s := coreAt (fun k => { k with probe := some 0 }); s.now + 999 < 0 + 1000) := by decide +kernel

theorem test_witness_LeakageAndCrossFeed :
    (let s := elapse 1000000 (coreOff (fun k => { k with state := .sound }))
     s.scanner.leakTest = none ∧ cfgCoreEnabled s.cfg 2 = true ∧ s.cable.cores[2].state = .sound ∧ s.commanded 2 = .off ∧
       s.drive.records[2].applied = false ∧ s.cable.cores[2].offSince + 10 ≤ s.timeBase ∧ s.scanner.mains = .present ∧
       s.cable.cores[2].probe = none ∧ s.cable.cores[2].lastLeakTest = none ∧
       ∀ m : CircuitId, m ≠ 2 → ¬ (s.cable.cores[m].state = .sound ∨ s.cable.cores[m].state = .leaky)) ∧
    (let s := { run with scanner := { run.scanner with leakTest := some (2, 0) } }
     s.scanner.leakTest = some (2, 0) ∧ 0 + 100000 ≤ s.now + 100000 ∧ s.now + 99999 < 0 + 100000) ∧
    (∀ m : CircuitId, run.cable.cores[m].state ≠ .sound ∧ run.cable.cores[m].state ≠ .leaky) ∧ run.scanner.leakTest = none := by
  decide +kernel

/-- The first eligible core is taken in cyclic order from the pointer: C3 from C3, C2 from C4 (R150). -/
theorem test_leak_pointer :
    let start := fun (p : CircuitId) => (after (.leakageTestStart 1000000)
      { run with
        groups := Vector.ofFn (fun g => { run.groups[g] with aspect := .dark })
        cable := { run.cable with
          leakPointer := p
          cores := Vector.ofFn (fun n => { run.cable.cores[n] with state := if n = 2 ∨ n = 3 then .sound else .untested }) } }
      ).scanner.leakTest
    (start 3 = some (3, 1000000)) ∧ (start 4 = some (2, 1000000)) := by decide +kernel

theorem test_witness_ReadingsProveLamps :
    ProvingState.unproven.classifies = true ∧ ProvingState.proven.classifies = true ∧ ProvingState.dim.classifies = true ∧
    ProvingState.failed.classifies = true ∧ satInc 7 = 8 ∧ satInc 15 = 16 ∧ satInc 3 = 4 ∧ satInc 63 = 64 ∧ satInc 14 ≠ 16 := by
  decide

/-- A CRITICAL reading of an overloaded DIM circuit clears both its alarms (R129). -/
theorem test_critical_clears :
    ({ run.circuits[2] with state := .dim, overloaded := true }.classified .critical false).2 =
      [(true, .lampShort), (false, .lampOverload), (false, .lampDim)] := by decide +kernel

/-! ### Witnesses: conflict, fallback, alarms, invariants -/

theorem test_witness_ConflictActs :
    (∀ m : JunctionMode, ∀ latch : Bool, (fallenTo m latch true).seq.mode = m ∧ (fallenTo m latch true).fallback.latch = latch) ∧
    JunctionMode.run.normal = true ∧ cfgConflictDark run.cfg = false ∧
    cfgConflictDark (mgmtAt (fun m => { m with active := some (Memory.write demo 10 1) })).cfg = true ∧
    (run.conflicts 0 1 = true ∧ threeEvident.groups[1].evidence = true ∧ run.groups[1].evidence = false) ∧
    threeEvident.pairsInEvidence = [1, 2] ∧ (threeEvident.swapConflicts).pairsInEvidence = [] :=
  ⟨fun _ _ => ⟨rfl, rfl⟩, rfl, by decide +kernel, by decide +kernel, by decide +kernel, by decide +kernel, by decide +kernel⟩

/-- B has evidence with its GREEN circuit C4 applied ON, and with C4's core in CROSS_FEED; a refresh brings it there (R157). -/
theorem test_evidence :
    let on : State := { run with drive := { run.drive with records := run.drive.records.set 4 { run.drive.records[4] with applied := true } } }
    let fed : State := { run with cable := { run.cable with cores := run.cable.cores.set 4 { run.cable.cores[4] with state := .crossFeed } } }
    run.evidenceOf 1 = false ∧ on.evidenceOf 1 = true ∧ fed.evidenceOf 1 = true ∧ on.groups[1].evidence = false ∧
      on.refreshEvidence.groups[1].evidence = true ∧ (threeEvident.refreshEvidence).groups[0].evidence = false := by decide +kernel

/-- A gain of evidence beside a conflicting group's is one conflict; the pair is not detected again until it has ended (R158). -/
theorem test_gain_of_evidence :
    let s := (run.setEvidence 0 true).setEvidence 1 true
    (run.setEvidence 0 true).fallback.latch = false ∧ s.fallback.latch = true ∧ s.fallback.detected = [1] ∧ s.seq.mode = .flash ∧
      (s.setEvidence 0 false).fallback.detected = [] := by decide +kernel

/-- Group A is withheld since 0. -/
def withheldA : State := aIn .red (fun x => { x with gain := some 0, withheld := true, withheldSince := some 0 })

theorem test_witness_StallAndControlledFallback :
    (withheldA.seq.mode = .run ∧ withheldA.longestWithheld = some (0, 0) ∧
      0 + cfgStallLimit withheldA.cfg ≤ (elapse 10000000 withheldA).timeBase ∧
      (elapse 9999999 withheldA).timeBase < 0 + cfgStallLimit withheldA.cfg) ∧
    (run.longestWithheld = none ∧ (runAt (fun q => { q with mode := .allRed })).seq.mode ≠ .run) ∧
    (let s := { fallenTo .failRed false true with fallback := { run.fallback with failRed := .running { load := 60, due := 60 } } }
     s.seq.mode = .failRed ∧ s.fallback.failRed = .running { load := 60, due := 60 } ∧ 60 ≤ (elapse 6000000 s).timeBase) ∧
    (let s := { fallenTo .failRed false true with
       fallback := { run.fallback with failRed := .waiting }
       groups := run.groups.set 0 { run.groups[0] with aspect := .amber, timer := some { load := 30, due := 30 } } }
     s.seq.mode = .failRed ∧ s.fallback.failRed = .waiting ∧ s.mgmt.activation = .none ∧ s.scanner.mains = .present ∧
       s.groups[0].aspect = .amber ∧ s.groups[0].timer = some { load := 30, due := 30 } ∧ 30 ≤ (elapse 3000000 s).timeBase ∧
       (∀ j : GroupId, j ≠ 0 → s.groups[j].kind ≠ .unused → s.groups[j].aspect = .red) ∧
       (after (.amberExpiry 3000000 0) s).fallback.failRed = .running { load := 60, due := 90 } ∧
       ¬ (∀ j : GroupId, j ≠ 1 → s.groups[j].kind ≠ .unused → s.groups[j].aspect = .red)) ∧
    (run.seq.mode.normal = true ∧ (fallenTo .flash false true).seq.mode.normal = false) ∧
    (let s := { fallenTo .dark false false with
       fallback := { run.fallback with cause := { cause := .driveOff, subject := 255, time := 0 } } }
     s.fallback.cause.cause = .driveOff ∧ s.drive.driveEn = false) := by decide +kernel

/-- A red that enters LOST in RUN under red-loss action FLASH: RED_LOST, FALLBACK, FAIL_RED; leaving LOST clears RED_LOST (R138). -/
theorem test_red_lost :
    let t := run.setRedStatus 1 .lost
    run.groups[1].redStatus = .proven ∧ t.seq.mode = .failRed ∧ t.fallback.cause.cause = .redLoss ∧ t.fallback.cause.subject = 1 ∧
      t.alarms.list.map (fun e => e.code) = [.redLost, .fallback] ∧
      ((t.setRedStatus 1 .unproven).alarms.list.map (fun e => e.active)) = [false, true] := by decide +kernel

/-- An alarm list of n entries of distinct subjects; the oldest is CLEARED when `cleared`. -/
def alarmsOf (n : Nat) (cleared : Bool) : Alarms :=
  { run.alarms with
    list := (List.range n).map (fun k => { AlarmEntry.atReset .stall with
      subject := BitVec.ofNat 8 k, active := !(cleared && k == 0) }) }

theorem test_witness_AlarmsRaisedAndCleared :
    (let a := alarmsOf 31 false
     (∀ x ∈ a.list, ¬ (x.code = AlarmCode.conflict ∧ x.subject = 1)) ∧ a.list.length < 32) ∧
    (let a := alarmsOf 32 true
     32 ≤ a.list.length ∧ (∀ x ∈ a.list, ¬ (x.code = AlarmCode.conflict ∧ x.subject = 1)) ∧
       ∃ e after, a.list = [] ++ e :: after ∧ e.active = false) ∧
    (32 ≤ (alarmsOf 32 false).list.length ∧ ∀ x ∈ (alarmsOf 32 false).list, x.active = true) ∧
    (let a := alarmsOf 2 false
     ∃ e f, a.list = [] ++ e :: [f] ∧ (e.code = AlarmCode.stall ∧ e.subject = 0) ∧ e.active = true ∧ ¬ (f.subject = 0)) ∧
    (∃ e f, (alarmsOf 2 true).list = [] ++ e :: [f] ∧ e.subject = 0 ∧ e.active = false ∧ ¬ (f.subject = 0)) :=
  ⟨by decide +kernel, ⟨by decide +kernel, by decide +kernel, _, _, rfl, rfl⟩, by decide +kernel,
    ⟨_, _, rfl, ⟨rfl, rfl⟩, rfl, by decide⟩, ⟨_, _, rfl, rfl, rfl, by decide⟩⟩

/-- The junction in RUN meets every invariant, and its step answers. -/
theorem test_witness_invariants :
    step run = .next run ∧ ListsBounded run ∧ AlarmsDistinct run ∧ MemoriesFit run ∧ NoConflictingGreens run ∧
    AspectsFollowMode run ∧ EvidenceComputed run ∧ LatchHolds run ∧ DriveEnHolds run ∧ EmptyHolds run ∧ NoStepOutsideRun run ∧
    FailRedTimed run ∧ TransferInRun run ∧ SupervisionTimed run ∧ BrokenNotProvable run ∧ ProbesOnlyWhenOff run ∧
    FailRedWaits run ∧ SwitchKeptInRest run ∧ ConflictsDetected run ∧ ConflictsDetected ((run.setEvidence 0 true).setEvidence 1 true) ∧
    RedStatusComputed (fallenTo .run false true) ∧ step (fallenTo .run false true) = .next (fallenTo .run false true) := by
  have hmem : memoryFits demo = true := test_demo_is_valid.1
  refine ⟨rfl, by unfold ListsBounded; decide, List.Pairwise.nil, ⟨hmem, by decide, ?_⟩, by unfold NoConflictingGreens; decide +kernel,
    by unfold AspectsFollowMode; decide +kernel, by unfold EvidenceComputed; decide +kernel, by unfold LatchHolds; decide,
    by unfold DriveEnHolds; decide, nofun, fun h => absurd rfl h, by unfold FailRedTimed; decide, by unfold TransferInRun; decide,
    by unfold SupervisionTimed; decide, by unfold BrokenNotProvable; decide +kernel, by unfold ProbesOnlyWhenOff; decide +kernel,
    nofun, nofun, by unfold ConflictsDetected; decide +kernel, by unfold ConflictsDetected; decide +kernel,
    by unfold RedStatusComputed; decide +kernel, rfl⟩
  intro m h
  cases h
  exact hmem

end Sys2Proof.Tests
end

section
/-! PROOFS. Every command keeps the queues within their sizes, the alarm entries distinct and the memories canonical (R15, R18, R73,
R168, R180). -/

namespace Sys2Proof.Machine

-- One declaration at a time, as in the tests: declarations that wait for one another each hold a thread with its stack.
set_option Elab.async false

open Sys2Proof.Safety

/-! ### What an operation keeps -/

/-- What every operation but the arrival of a frame keeps: the transit queue does not grow, the notices stay within 8, the alarm list
within 32 with each alarm once, the memories canonical with blocks 14 and 15 empty. -/
structure StoresKept (s t : State) : Prop where
  transit : t.ring.transit.length ≤ s.ring.transit.length
  insertion : s.ring.insertion.length ≤ 8 → t.ring.insertion.length ≤ 8
  alarms : AlarmsGrown s.alarms t.alarms
  memories : MemoriesFit s → MemoriesFit t

/-- What every command keeps, the arrival of a frame too. -/
structure LimitsKept (s t : State) : Prop where
  lists : ListsBounded s → ListsBounded t
  distinct : AlarmsDistinct s → AlarmsDistinct t
  memories : MemoriesFit s → MemoriesFit t

theorem StoresKept.trans {s t u : State} (h : StoresKept s t) (k : StoresKept t u) : StoresKept s u where
  transit := Nat.le_trans k.transit h.transit
  insertion hs := k.insertion (h.insertion hs)
  alarms := h.alarms.trans k.alarms
  memories hs := k.memories (h.memories hs)

theorem StoresKept.limits {s t : State} (h : StoresKept s t) : LimitsKept s t where
  lists := fun ⟨htransit, hinsertion, halarms⟩ =>
    ⟨Nat.le_trans h.transit htransit, h.insertion hinsertion, h.alarms.bounded halarms⟩
  distinct := h.alarms.once
  memories := h.memories

theorem LimitsKept.trans {s t u : State} (h : LimitsKept s t) (k : LimitsKept t u) : LimitsKept s u where
  lists hs := k.lists (h.lists hs)
  distinct hs := k.distinct (h.distinct hs)
  memories hs := k.memories (h.memories hs)

/-- An operation that lets neither queue grow and leaves the alarm list and the memories alone. -/
theorem StoresKept.of_queues {s t : State} (transit : t.ring.transit.length ≤ s.ring.transit.length)
    (insertion : t.ring.insertion.length ≤ s.ring.insertion.length) (alarms : t.alarms.list = s.alarms.list := by rfl)
    (staging : t.mgmt.staging = s.mgmt.staging := by rfl) (active : t.mgmt.active = s.mgmt.active := by rfl)
    (image : t.nv.image = s.nv.image := by rfl) : StoresKept s t where
  transit := transit
  insertion := Nat.le_trans insertion
  alarms := ⟨by rw [alarms]; exact id, by rw [alarms]; exact id⟩
  memories := by unfold MemoriesFit; rw [staging, active, image]; exact id

/-- An operation that leaves the queues, the alarm list and the memories alone. -/
theorem StoresKept.of_same {s t : State} (transit : t.ring.transit = s.ring.transit := by rfl)
    (insertion : t.ring.insertion = s.ring.insertion := by rfl) (alarms : t.alarms.list = s.alarms.list := by rfl)
    (staging : t.mgmt.staging = s.mgmt.staging := by rfl) (active : t.mgmt.active = s.mgmt.active := by rfl)
    (image : t.nv.image = s.nv.image := by rfl) : StoresKept s t :=
  .of_queues (Nat.le_of_eq (congrArg List.length transit)) (Nat.le_of_eq (congrArg List.length insertion)) alarms staging active image

theorem StoresKept.refl (s : State) : StoresKept s s := .of_same

/-- What `Settled` says suffices: the active configuration stays or is the staging configuration. -/
theorem Settled.stores {s t : State} (h : Settled s t) : StoresKept s t where
  transit := Nat.le_of_eq (congrArg List.length h.ring.transit)
  insertion := h.ring.bounded
  alarms := h.alarms
  memories := by
    rintro ⟨hstaging, himage, hactive⟩
    have hsame : t.mgmt.staging = s.mgmt.staging := by rw [h.mgmt]
    refine ⟨by rw [hsame]; exact hstaging, by rw [h.nv]; exact himage, ?_⟩
    rcases h.active with e | e <;> rw [e]
    · exact hactive
    · rintro m ⟨⟩
      exact hstaging

theorem Lamp.stores {s t : State} (h : Lamp s t) : StoresKept s t := h.settled.stores

theorem Control.stores {s t : State} (h : Control s t) : StoresKept s t := h.settled.stores

theorem GroupsOnly.stores {s t : State} (h : GroupsOnly s t) : StoresKept s t := h.settled.stores

theorem settle_stores (s : State) : StoresKept s s.settle := (settle_settled s).stores

theorem foldl_stores {α : Type} (f : State → α → State) (h : ∀ s a, StoresKept s (f s a)) (l : List α) (s : State) :
    StoresKept s (l.foldl f s) :=
  foldl_keeps (StoresKept s) f (fun t a ht => ht.trans (h t a)) l s (.refl s)

/-- An operation that is carried out or not. -/
theorem StoresKept.ite {s t u : State} {p : Prop} [Decidable p] (h : p → StoresKept s t) (k : StoresKept s u) :
    StoresKept s (if p then t else u) := by
  split
  · exact h ‹_›
  · exact k

/-! ### Resets and the store -/

/-- A reset empties the queues and the alarm list, and keeps the image alone of the memories. -/
theorem wiped_stores (s : State) (phase : ResetPhase) (clock : Word) (clockSince : Nat) (last : CauseRecord) :
    StoresKept s (s.wiped phase clock clockSince last) where
  transit := Nat.zero_le _
  insertion _ := Nat.zero_le _
  alarms := ⟨fun _ => Nat.zero_le _, fun _ => List.Pairwise.nil⟩
  memories := fun ⟨_, himage, _⟩ => ⟨rfl, himage, fun _ hm => nomatch hm⟩

/-- The load takes the image or nothing (R73). -/
theorem loaded_stores (s : State) (ident : BitVec 4) (bench driveEn : Bool) : StoresKept s (s.loaded ident bench driveEn) where
  transit := Nat.le_refl _
  insertion := id
  alarms := AlarmsGrown.refl _
  memories := by
    rintro ⟨-, himage, -⟩
    refine ⟨?_, himage, ?_⟩
    · show memoryFits s.nv.staging = true
      unfold NonVolatile.staging
      split
      · exact himage
      · rfl
    · show ∀ m ∈ s.nv.config, memoryFits m = true
      unfold NonVolatile.config
      split
      · rintro m ⟨⟩
        exact himage
      · exact fun _ hm => nomatch hm

theorem resetRaises_stores (s : State) : StoresKept s s.resetRaises := by
  unfold State.resetRaises
  dsimp only
  have hline : StoresKept s (s.raise .lineDown 255) := (raise_control s _ _).stores
  have hempty : StoresKept s (if cfgEmpty (s.raise .lineDown 255).cfg then (s.raise .lineDown 255).raise .configEmpty 255
      else s.raise .lineDown 255) :=
    .ite (fun _ => hline.trans (raise_control _ _ _).stores) hline
  exact .ite (fun _ => hempty) (hempty.trans (raise_control _ _ _).stores)

theorem resetMode_stores (s : State) : StoresKept s s.resetMode :=
  .ite (fun _ => .of_same) (.ite (fun _ => (enterStart_control s _).stores) .of_same)

theorem endReset_stores (s : State) (ident : BitVec 4) (bench driveEn : Bool) (clock : Word) (clockSince : Nat)
    (last : CauseRecord) : StoresKept s (s.endReset ident bench driveEn clock clockSince last) :=
  (((wiped_stores s _ _ _ _).trans (loaded_stores _ _ _ _)).trans (resetRaises_stores _)).trans (resetMode_stores _)

/-- A finished image write stores the staging configuration (R66). -/
theorem imageWritten_stores (s : State) (maskNext : Bool) : StoresKept s (s.imageWritten maskNext) where
  transit := Nat.le_refl _
  insertion := id
  alarms := AlarmsGrown.refl _
  memories := fun ⟨hstaging, _, hactive⟩ => ⟨hstaging, hstaging, hactive⟩

/-! ### LOAD -/

/-- RETIRE takes entries off the alarm list (R173). -/
theorem retire_stores (s : State) : StoresKept s s.retire where
  transit := Nat.le_refl _
  insertion := id
  alarms := ⟨Nat.le_trans (List.length_filter_le _ _), fun h => h.sublist List.filter_sublist⟩
  memories := id

theorem stageFlagClear_stores (s : State) (bits : Half) : StoresKept s (s.stageFlagClear bits) := .of_same

theorem startMaskWrite_stores (s : State) : StoresKept s s.startMaskWrite := by
  unfold State.startMaskWrite
  split <;> exact .of_same

theorem protect_stores (s : State) (which bits : Half) : StoresKept s (s.protect which bits) := by
  unfold State.protect
  dsimp only
  refine .ite (fun _ => .of_same) (StoresKept.trans ?_ (startMaskWrite_stores _))
  exact .of_same

theorem clearProvingAll_stores (s : State) (b : Byte) : StoresKept s (s.clearProvingAll b) :=
  (foldl_lamp _ (fun t n => clearProving_lamp t n) _ s).stores.trans (settle_stores _)

theorem coreRetestAll_stores (s : State) (b : Byte) : StoresKept s (s.coreRetestAll b) :=
  (foldl_lamp _ (fun t n => coreRetest_lamp t n) _ s).stores.trans (settle_stores _)

/-- A control that acts on the byte that a LOAD carries for it, if any. -/
theorem StoresKept.of_byte {s : State} (f : Byte → State) (h : ∀ b, StoresKept s (f b)) (o : Option Byte) :
    StoresKept s (match o with | none => s | some b => f b) := by
  cases o with
  | none => exact .refl s
  | some b => exact h b

theorem loadControls_stores (s : State) (p : Span) (data : List Byte) : StoresKept s (s.loadControls p data) := by
  unfold State.loadControls
  dsimp only
  refine .trans ?_ (.ite (fun _ => .refl _) (protect_stores _ _ _))
  refine .trans ?_ (.ite (fun _ => .of_same) (.refl _))
  refine .trans ?_ (.of_byte _ (coreRetestAll_stores _) _)
  refine .trans ?_ (.of_byte _ (clearProvingAll_stores _) _)
  refine .trans ?_ (.of_byte _ (fun _ => .of_same) _)
  refine .trans ?_ (stageFlagClear_stores _ _)
  refine .trans ?_ (.ite (fun _ => .of_same) (.refl _))
  refine .trans ?_ (.ite (fun _ => retire_stores _) (.refl _))
  exact .ite (fun _ => .of_same) (.refl s)

/-- A span of the staging window that passed test 1 of a LOAD ends below block 14 (R46). -/
theorem staging_span_bound (p : Span) (data : List Byte) (hrange : loadOutOfRange p data = false)
    (hin : p.inside stagingWindow = true) : 0x1000 ≤ p.start ∧ p.start + p.count ≤ 0x1E00 := by
  simp only [loadOutOfRange, hin, Bool.or_eq_false_iff, Bool.true_and, decide_eq_false_iff_not, Nat.not_lt] at hrange
  obtain ⟨⟨⟨⟨-, -⟩, hend⟩, -⟩, -⟩ := hrange
  simp only [Span.inside, Bool.and_eq_true, Window.has_eq_true, stagingWindow] at hin
  exact ⟨hin.1.1, hend⟩

/-- A span comes with as many bytes as it counts (R44, R46). -/
theorem parseSpan_length {payload data : List Byte} {p : Span} (h : parseSpan payload = some (p, data)) :
    data.length = p.count := by
  unfold parseSpan at h
  split at h
  · split at h
    · rename_i hform
      obtain ⟨rfl, rfl⟩ : _ ∧ _ := by simpa using h
      exact hform.1
    · cases h
  · cases h

/-- A staging LOAD writes below block 14 in the canonical form (R49, R73, R180). -/
theorem loadStaging_stores (s : State) (p : Span) (data : List Byte) (hstart : 0x1000 ≤ p.start)
    (hend : p.start + data.length ≤ 0x1E00) : StoresKept s (s.loadStaging p data) where
  transit := Nat.le_refl _
  insertion := id
  alarms := AlarmsGrown.refl _
  memories := by
    rintro ⟨hstaging, himage, hactive⟩
    refine ⟨?_, himage, hactive⟩
    simp only [memoryFits, Bool.and_eq_true] at hstaging
    obtain ⟨hwf, hbelow⟩ := hstaging
    simp only [State.loadStaging, memoryFits, Bool.and_eq_true]
    exact ⟨Memory.wf_writeMany data _ _ hwf, Memory.below_writeMany data _ _ 3584 (by omega) hbelow⟩

theorem loadAnswer_stores (s : State) (payload : List Byte) : StoresKept s (s.loadAnswer payload).2 := by
  unfold State.loadAnswer
  cases hspan : parseSpan payload with
  | none => exact .refl s
  | some x =>
    obtain ⟨p, data⟩ := x
    have hlen := parseSpan_length hspan
    dsimp only
    split
    · exact .refl s
    · rename_i hrange
      split
      · exact .refl s
      · split
        · exact .of_same
        · unfold State.loadAct
          split
          · rename_i hin
            obtain ⟨hstart, hend⟩ := staging_span_bound p data (by simpa using hrange) hin
            exact loadStaging_stores s p data hstart (by omega)
          · split
            · split
              · exact .of_same
              · exact StoresKept.trans (t := s.checkResult none) .of_same (loadControls_stores _ p data)
            · exact loadControls_stores s p data

/-! ### CALL -/

theorem answerPlan_settled (s : State) (n : Byte) : Settled s (s.answerPlan n).2 := by
  unfold State.answerPlan
  split
  · exact Settled.refl s
  · split
    · exact Settled.refl s
    · split
      · exact Settled.refl s
      · exact (Settled.of_seq s { s.seq with pendingPlan := some n.toNat, supervisedPlan := n.toNat } s.demand rfl
          ⟨rfl, rfl, rfl, rfl⟩).trans (restSwitch_settled _)

theorem answerForce_settled (s : State) (n : Byte) : Settled s (s.answerForce n).2 := by
  have hwait : Settled s { s with seq := { s.seq with pendingForce := some n.toNat } } :=
    Settled.of_seq s { s.seq with pendingForce := some n.toNat } s.demand rfl ⟨rfl, rfl, rfl, rfl⟩
  unfold State.answerForce
  split
  · exact Settled.refl s
  · split
    · exact Settled.refl s
    · split
      · exact Settled.refl s
      · dsimp only
        split
        · exact actForce_settled s _
        · exact actForce_settled s _
        all_goals exact hwait

theorem answerHold_settled (s : State) : Settled s s.answerHold.2 := by
  unfold State.answerHold
  split
  · exact Settled.refl s
  · split
    · exact Settled.refl s
    · exact Settled.of_seq s { s.seq with hold := true } s.demand rfl ⟨rfl, rfl, rfl, rfl⟩

theorem afterRelease_settled (s : State) (before : Sequencer) : Settled s (s.afterRelease before) := by
  unfold State.afterRelease
  split
  · exact stepEnd_settled s
  · split
    · exact holdEnded_settled s
    · exact Settled.refl s

theorem answerRelease_settled (s : State) : Settled s s.answerRelease.2 := by
  unfold State.answerRelease
  split
  · exact Settled.refl s
  · exact (Settled.of_seq s s.seq.released s.demand rfl ⟨rfl, rfl, rfl, rfl⟩).trans (afterRelease_settled _ _)

theorem answerAllRed_settled (s : State) : Settled s s.answerAllRed.2 := by
  unfold State.answerAllRed
  split
  · dsimp only
    exact (Settled.of_seq s s.seq.toAllRed s.demand.noHeld rfl ⟨rfl, rfl, rfl, rfl⟩).trans (clearToRed_groupsOnly _).settled
  all_goals exact Settled.refl s

theorem resumeRun_settled (s : State) : Settled s s.resumeRun := by
  unfold State.resumeRun
  dsimp only
  generalize s.seq.resumeStep.getD s.seq.pointer = k
  exact (Settled.of_seq s { s.seq with mode := .run, pointer := k, resumeStep := none } s.demand rfl
    ⟨rfl, rfl, rfl, rfl⟩).trans (changeStage_settled _ _ _)

/-- The control source changes, which `Settled` does not allow. -/
theorem resumeSupervised_stores (s : State) : StoresKept s s.resumeSupervised := by
  unfold State.resumeSupervised
  refine .trans (.trans ?_ (clear_control _ _ _).stores) (restSwitch_settled _).stores
  exact .of_same

theorem clearStalls_settled (s : State) : Settled s s.clearStalls :=
  foldl_settled (fun t (e : AlarmEntry) => t.clear .stall e.subject) (fun t _ => (clear_control t _ _).settled) _ s

theorem answerResume_stores (s : State) : StoresKept s s.answerResume.2 := by
  have hfallback : StoresKept s s.resumeFallback :=
    ((enterStart_control s _).settled.trans (clearStalls_settled _)).stores
  unfold State.answerResume
  split
  · exact .refl s
  · split
    · exact (resumeRun_settled s).stores
    · split
      · exact .refl s
      · split
        · exact resumeSupervised_stores s
        · exact .refl s
    · exact .refl s
    · exact .refl s
    all_goals
      split
      · exact .refl s
      · exact hfallback

theorem answerFlash_settled (s : State) : Settled s s.answerFlash.2 := by
  unfold State.answerFlash
  split
  iterate 4 exact (toFlash_control s _).settled
  iterate 2 exact Settled.refl s

theorem answerDark_settled (s : State) : Settled s s.answerDark.2 := by
  unfold State.answerDark
  split
  iterate 5 exact (toDark_control s _).settled
  exact Settled.refl s

theorem restartSupervision_stores (s : State) : StoresKept s s.restartSupervision :=
  .ite (fun _ => .refl s) .of_same

/-- The state that comes with an answer. -/
def AnswerKept (s : State) (r : Verdict × State) : Prop := StoresKept s r.2

theorem AnswerKept.refl (s : State) (v : Verdict) : AnswerKept s (v, s) := StoresKept.refl s

theorem AnswerKept.ite {s : State} {a b : Verdict × State} {p : Prop} [Decidable p] (h : AnswerKept s a) (k : AnswerKept s b) :
    AnswerKept s (if p then a else b) := by
  split
  · exact h
  · exact k

/-- Each command of the table of 11.1, then the code that names none (R112). -/
theorem callCommand_stores (s : State) (payload : List Byte) : AnswerKept s (s.callCommand payload) := by
  unfold State.callCommand
  split
  · exact .refl s _
  · refine .ite ?plan (.ite ?force (.ite (answerHold_settled s).stores (.ite (answerRelease_settled s).stores
      (.ite (answerAllRed_settled s).stores (.ite (answerFlash_settled s).stores (.ite (answerDark_settled s).stores
        (.ite (answerResume_stores s) (.ite ?demand (.ite ?time (.refl s _))))))))))
    case plan =>
      split
      · exact (answerPlan_settled s _).stores
      · exact .refl s _
    case force =>
      split
      · exact (answerForce_settled s _).stores
      · exact .refl s _
    case demand =>
      split
      · exact (raiseLines_settled s _).stores
      · exact .refl s _
    case time =>
      split
      · exact StoresKept.of_same
      · exact .refl s _

theorem callAnswer_stores (s : State) (payload : List Byte) : StoresKept s (s.callAnswer payload).2 := by
  unfold State.callAnswer callDone
  split
  · exact (StoresKept.trans (callCommand_stores s payload) (restartSupervision_stores _)).trans (settle_stores _)
  · exact callCommand_stores s payload

/-! ### The arrival of a frame -/

theorem echoAnswer_stores (s : State) (f : Frame) : StoresKept s (s.echoAnswer f).2 := by
  unfold State.echoAnswer
  split
  · exact .of_same
  · exact .refl s

theorem manage_stores (s : State) (f : Frame) : StoresKept s (s.manage f).2 := by
  unfold State.manage
  split
  · exact .refl s
  · split
    · exact loadAnswer_stores s _
    · split
      · split
        · exact callAnswer_stores s _
        · exact .of_same
      · exact echoAnswer_stores s f

theorem snoop_stores (s : State) (f : Frame) (e : Nat) : StoresKept s (s.snoop f e) :=
  .ite (fun _ => (raiseLines_settled s _).stores.trans (settle_stores _)) (.refl s)

/-- A frame joins the transit queue only where it has room (R15). -/
theorem enqueue_limits {s t : State} (q : QueuedFrame) (room : s.ring.transit.length < 4) (h : StoresKept s t) :
    LimitsKept s (t.enqueue q) where
  lists := by
    rintro ⟨-, hinsertion, halarms⟩
    have htransit := h.transit
    refine ⟨?_, h.insertion hinsertion, h.alarms.bounded halarms⟩
    simp only [State.enqueue, List.length_append, List.length_singleton]
    omega
  distinct := h.alarms.once
  memories := h.memories

theorem classify_limits (s : State) (f : Frame) (room : s.ring.transit.length < 4) : LimitsKept s (s.classify f) := by
  unfold State.classify
  split
  · exact StoresKept.limits .of_same
  · split
    · exact StoresKept.limits .of_same
    · split
      · split
        · exact enqueue_limits _ room (manage_stores s f)
        · exact enqueue_limits _ room (.refl s)
      · split
        · exact enqueue_limits _ room (.refl s)
        · exact enqueue_limits _ room (snoop_stores s f _)
        · exact StoresKept.limits .of_same

theorem arrive_limits (s : State) (f : Frame) : LimitsKept s (s.arrive f) := by
  unfold State.arrive
  split
  · exact classify_limits s f ‹_›
  · exact StoresKept.limits .of_same

theorem onLine_stores (s : State) (f : LineRecord → LineRecord) : StoresKept s (s.onLine f) := .of_same

theorem enterUp_stores (s : State) : StoresKept s s.enterUp := by
  unfold State.enterUp
  refine .trans ?_ (clear_control _ _ _).stores
  exact .of_same

theorem enterDown_stores (s : State) : StoresKept s s.enterDown := by
  unfold State.enterDown
  refine .trans ?_ (raise_control _ _ _).stores
  exact .of_same

theorem countGood_stores (s : State) : StoresKept s s.countGood := by
  unfold State.countGood
  split
  · dsimp only
    refine .trans ?_ (.ite (fun _ => enterUp_stores _) (.refl _))
    exact .of_same
  · exact .refl s
  · exact .refl s

theorem waiting_stores (s : State) : StoresKept s s.waiting := .of_same

theorem goodFrame_limits (s : State) (f : Frame) : LimitsKept s (s.goodFrame f) :=
  (countGood_stores s).limits.trans (arrive_limits _ f)

theorem handOn_limits (f : Frame) (s : State) : LimitsKept s (s.handOn f) := by
  have hgood : LimitsKept s (if f.payload.length ≤ 48 then s.waiting.goodFrame f else s) := by
    split
    · exact (waiting_stores s).limits.trans (goodFrame_limits _ f)
    · exact (StoresKept.refl s).limits
  unfold State.handOn
  split
  · exact (StoresKept.refl s).limits
  · exact hgood
  · exact hgood

/-! ### RING IN -/

/-- A frame with an invalid line symbol fails a test of R14. -/
theorem frameError_of_badSymbol (bytes : List Byte) : ∃ e, frameError bytes true = some e := by
  unfold frameError
  split
  · exact ⟨_, rfl⟩
  · split
    · exact ⟨_, rfl⟩
    · split
      · exact ⟨_, rfl⟩
      · exact ⟨_, rfl⟩

/-- A bad frame is counted and dropped (R14, R24). -/
theorem frameEnded_of_error {bytes : List Byte} {bad : Bool} {e : FrameError} (h : frameError bytes bad = some e) (s : State) :
    s.frameEnded bytes bad =
      { s with ring := { s.ring with reception := .waiting, counters := s.ring.counters.count e } } := by
  simp only [State.frameEnded, h]
  rfl

theorem frameEnded_limits (s : State) (bytes : List Byte) (bad : Bool) : LimitsKept s (s.frameEnded bytes bad) := by
  unfold State.frameEnded
  split
  · exact StoresKept.limits .of_same
  · split
    · exact (waiting_stores s).limits
    · exact (waiting_stores s).limits.trans (goodFrame_limits _ _)

theorem frameStart_stores (s : State) : StoresKept s s.frameStart := .of_same

/-- The frame that a start marker ends is a bad one (R11). -/
theorem startMarker_stores (s : State) : StoresKept s s.startMarker := by
  have hopen : ∀ bytes, StoresKept s (s.frameEnded bytes true).frameStart := by
    intro bytes
    obtain ⟨e, he⟩ := frameError_of_badSymbol bytes
    rw [frameEnded_of_error he]
    exact .of_same
  unfold State.startMarker
  split
  · exact .refl s
  all_goals
    split
    · exact hopen _
    · exact frameStart_stores s
    · exact frameStart_stores s

theorem markSeeking_stores (s : State) : StoresKept s s.markSeeking := by
  unfold State.markSeeking
  dsimp only
  split
  · exact onLine_stores s _
  · split
    · exact (onLine_stores s _).trans (.ite (fun _ => enterUp_stores _) (.refl _))
    · exact (enterDown_stores s).trans (onLine_stores _ _)

theorem validMark_stores (s : State) : StoresKept s s.validMark := by
  unfold State.validMark
  dsimp only
  split
  · exact onLine_stores s _
  · exact markSeeking_stores s
  · exact onLine_stores s _

theorem invertedMarkCounted_stores (s : State) : StoresKept s s.invertedMarkCounted :=
  .ite (fun _ => onLine_stores s _) ((onLine_stores s _).trans (validMark_stores _))

theorem dataByte_stores (s : State) (b : Byte) : StoresKept s (s.dataByte b) := by
  unfold State.dataByte
  split
  · exact .refl s
  · exact .of_same
  · exact .ite (fun _ => .of_same) .of_same

theorem endMarker_limits (s : State) : LimitsKept s s.endMarker := by
  unfold State.endMarker
  split
  · exact (StoresKept.refl s).limits
  · exact frameEnded_limits s _ _
  · exact StoresKept.limits .of_same

/-! ### RING OUT and the insertion queue -/

theorem insertHead_stores (s : State) (e : InsertionEntry) (rest : List InsertionEntry) (h : s.ring.insertion = e :: rest) :
    StoresKept s (s.insertHead e rest) :=
  .of_queues (Nat.le_refl _) (by simp [State.insertHead, h])

theorem deferHead_stores (s : State) (e : InsertionEntry) (rest : List InsertionEntry) (h : s.ring.insertion = e :: rest) :
    StoresKept s (s.deferHead e rest) :=
  .ite (fun _ => .of_queues (Nat.le_refl _) (by simp [h])) (.of_queues (Nat.le_refl _) (by simp [h]))

/-! ### Contacts, the sequencer and the lamp side -/

theorem sampleContact_stores (s : State) (k : ContactId) (closed : Bool) : StoresKept s (s.sampleContact k closed) := by
  unfold State.sampleContact
  dsimp only
  refine .ite (fun _ => ?_) (.ite (fun _ => .of_same) .of_same)
  refine .trans ?_ (demandEvent_settled _ _).stores
  exact .of_same

theorem setHeld_stores (s : State) (k : ContactId) (x : Option Nat) : StoresKept s (s.setHeld k x) := .of_same

theorem tickClock_stores (s : State) : StoresKept s s.tickClock := .ite (fun _ => .of_same) (.refl s)

theorem afterIsolation_settled (s : State) (held : Bool) : Settled s (s.afterIsolation held) := by
  unfold State.afterIsolation
  split
  · exact stepEnd_settled s
  · split
    · exact stepEnd_settled s
    · exact Settled.refl s

theorem minEnded_settled (s : State) : Settled s s.minEnded := by
  unfold State.minEnded
  split
  · exact Settled.refl s
  · exact beginClearing_settled s
  · split
    · exact actForce_settled s _
    · split
      · exact beginRest_settled s
      · exact stepEnd_settled s
      · exact Settled.of_seq s { s.seq with step := .extend } s.demand rfl ⟨rfl, rfl, rfl, rfl⟩

/-- A mark changes counts and takes back switches, both of the lamp side, and may clear MAINS_LOST. -/
theorem countMark_stores (s : State) : StoresKept s s.countMark := by
  unfold State.countMark
  dsimp only
  split
  · exact .of_same
  · refine .trans (.trans ?_ (takeBack_lamp _).stores) (clear_control _ _ _).stores
    exact .of_same

theorem sampleSet_lamp (s : State) (records : Vector DriveRecord 24) (values : Vector Nat 24) :
    Lamp s (s.sampleSet records values) := by
  unfold State.sampleSet
  dsimp only
  refine .trans (foldl_lamp _ (fun t n => ?_) _ s) (foldl_lamp _ (fun t n => ?_) _ _)
  · split
    · exact currentReading_lamp t n _
    · exact Lamp.refl t
  · split
    · exact voltageReading_lamp t n _
    · exact Lamp.refl t

theorem driveFall_stores (s : State) : StoresKept s s.driveFall := by
  unfold State.driveFall
  dsimp only
  refine .trans (.trans ?_ (toDark_control _ _).stores) (raise_control _ _ _).stores
  refine .trans (.trans ?_ (applyTargets_lamp _).stores) (forget_lamp _).stores
  exact .of_same

theorem driveRise_stores (s : State) : StoresKept s s.driveRise := by
  unfold State.driveRise
  dsimp only
  refine .trans ?_
    (.ite (fun _ => (shift_control _ _ _).stores) (.ite (fun _ => (shift_control _ _ _).stores) (enterStart_control _ _).stores))
  refine .trans ?_ (clear_control _ _ _).stores
  exact .of_same

theorem cancelTests_stores (s : State) : StoresKept s s.cancelTests := .of_same

theorem loseMains_stores (s : State) : StoresKept s s.loseMains := by
  unfold State.loseMains
  refine .trans (.trans ?_ (cancelTests_stores _)) (applyTargets_lamp _).stores
  refine .trans ?_ (raise_control _ _ _).stores
  exact .of_same

/-! ### Every command -/

/-- Whatever state a command ends in, it keeps the sizes and the forms. -/
def EndsKept (s : State) (o : Host.Outcome State Fault Refusal) : Prop := ∀ t, o = .next t → LimitsKept s t

theorem EndsKept.of_next {s t : State} (h : StoresKept s t) : EndsKept s (.next t) := by
  rintro _ ⟨⟩
  exact h.limits

theorem elapse_stores (dt : Nat) (s : State) : StoresKept s (elapse dt s) := .of_same

theorem live_endsLimits (dt : Nat) (f : State → State) (s : State) (h : ∀ u, LimitsKept u (f u)) : EndsKept s (live dt f s) := by
  intro t ht
  by_cases hphase : s.phase = .notInReset
  · rw [live_next dt f s hphase] at ht
    cases ht
    exact (elapse_stores dt s).limits.trans (h _)
  · rw [live_reset dt f s hphase] at ht
    cases ht
    exact (elapse_stores dt s).limits

theorem live_ends {dt : Nat} {f : State → State} {s : State} (h : ∀ u, StoresKept u (f u)) : EndsKept s (live dt f s) :=
  live_endsLimits dt f s (fun u => (h u).limits)

theorem execResetEnd_ends (dt : Nat) (ident : BitVec 4) (bench driveEn : Bool) (s : State) :
    EndsKept s (execResetEnd dt ident bench driveEn s) := by
  unfold execResetEnd
  dsimp only
  split
  · exact .of_next (elapse_stores dt s)
  all_goals
    exact .of_next ((elapse_stores dt s).trans (.ite (fun _ => endReset_stores _ _ _ _ _ _ _) (.refl _)))

theorem execKeepAliveMark_ends (dt : Nat) (s : State) : EndsKept s (execKeepAliveMark dt s) := by
  refine live_ends (fun u => ?_)
  split
  · exact .ite (fun _ => .of_same) (.refl u)
  all_goals exact .refl u

theorem execMarkEnd_ends (dt : Nat) (s : State) : EndsKept s (execMarkEnd dt s) := by
  refine live_ends (fun u => ?_)
  split
  · exact .refl u
  · exact .refl u
  · exact .ite (fun _ => .of_same) (.refl u)

/-- The frame that is sent leaves the transit queue (R16). -/
theorem execTransmissionStart_ends (dt : Nat) (s : State) : EndsKept s (execTransmissionStart dt s) := by
  refine live_ends (fun u => ?_)
  split
  · rename_i q rest _ hqueue
    exact .of_queues (by simp [hqueue]) (Nat.le_refl _)
  · exact .refl u

theorem execTransmissionEnd_ends (dt : Nat) (s : State) : EndsKept s (execTransmissionEnd dt s) := by
  refine live_ends (fun u => ?_)
  split
  · exact .refl u
  · exact .refl u
  · exact .ite (fun _ => .of_same) (.refl u)

theorem execInsertionAttempt_ends (dt : Nat) (s : State) : EndsKept s (execInsertionAttempt dt s) := by
  refine live_ends (fun u => ?_)
  split
  · exact .refl u
  · rename_i e rest hqueue
    exact .ite (fun _ => .ite (fun _ => insertHead_stores u e rest hqueue) (deferHead_stores u e rest hqueue)) (.refl u)

theorem execValidMark_ends (dt width : Nat) (s : State) : EndsKept s (execValidMark dt width s) := by
  refine live_ends (fun u => ?_)
  split
  · exact .ite (fun _ => validMark_stores u) (.refl u)
  · exact .of_same
  · exact .of_same

theorem execInvertedMark_ends (dt width : Nat) (s : State) : EndsKept s (execInvertedMark dt width s) := by
  refine live_ends (fun u => ?_)
  split
  · refine .ite (fun _ => ?_) (.refl u)
    split
    · exact invertedMarkCounted_stores u
    · exact invertedMarkCounted_stores u
    · exact .refl u
  · exact .of_same
  · exact .of_same

theorem execInvertedStartMarker_ends (dt : Nat) (s : State) : EndsKept s (execInvertedStartMarker dt s) := by
  refine live_ends (fun u => ?_)
  split
  · exact (onLine_stores u _).trans (startMarker_stores _)
  · exact (onLine_stores u _).trans (startMarker_stores _)
  · exact .of_same

theorem execDiscardingSilence_ends (dt : Nat) (s : State) : EndsKept s (execDiscardingSilence dt s) := by
  refine live_ends (fun u => ?_)
  split
  · exact .refl u
  · exact .refl u
  · exact .ite (fun _ => waiting_stores u) (.refl u)

theorem execSeekingTimeout_ends (dt : Nat) (s : State) : EndsKept s (execSeekingTimeout dt s) := by
  refine live_ends (fun u => ?_)
  split
  · exact .refl u
  · exact .ite (fun _ => enterDown_stores u) (.refl u)
  · exact .refl u

theorem execSilenceWatchdog_ends (dt : Nat) (s : State) : EndsKept s (execSilenceWatchdog dt s) := by
  refine live_ends (fun u => ?_)
  split
  · exact .refl u
  · exact .refl u
  · exact .ite (fun _ => enterDown_stores u) (.refl u)

theorem execImageWriteEnd_ends (dt : Nat) (s : State) : EndsKept s (execImageWriteEnd dt s) := by
  refine live_ends (fun u => ?_)
  split
  · exact .refl u
  · exact .refl u
  · exact .ite (fun _ => ((imageWritten_stores u _).trans (activationPending_settled _).stores).trans (settle_stores _)) (.refl u)

theorem execMaskWriteEnd_ends (dt : Nat) (s : State) : EndsKept s (execMaskWriteEnd dt s) := by
  refine live_ends (fun u => ?_)
  split
  · exact .refl u
  · exact .refl u
  · exact .ite (fun _ => .of_same) (.refl u)

theorem execContactSample_ends (dt : Nat) (levels : Byte) (s : State) : EndsKept s (execContactSample dt levels s) := by
  refine live_ends (fun u => .ite (fun _ => ?_) (.refl u))
  refine .trans (.trans ?_ (foldl_stores _ (fun t k => sampleContact_stores t k _) _ _)) (settle_stores _)
  exact .of_same

theorem execHeldExtension_ends (dt : Nat) (k : ContactId) (s : State) : EndsKept s (execHeldExtension dt k s) := by
  refine live_ends (fun u => .ite (fun _ => ?_) (setHeld_stores u k none))
  split
  · exact (setHeld_stores u k _).trans (extensionEvent_settled _).stores
  · exact .ite (fun _ => (setHeld_stores u k _).trans (extensionEvent_settled _).stores) (.refl u)

theorem execCabinetClockTick_ends (dt : Nat) (s : State) : EndsKept s (execCabinetClockTick dt s) := by
  unfold execCabinetClockTick
  dsimp only
  split
  · exact .of_next ((elapse_stores dt s).trans (tickClock_stores _))
  · exact .of_next (elapse_stores dt s)
  · exact .of_next ((elapse_stores dt s).trans (tickClock_stores _))

theorem execSupervisionExpiry_ends (dt : Nat) (s : State) : EndsKept s (execSupervisionExpiry dt s) := by
  refine live_ends (fun u => ?_)
  split
  · exact .refl u
  · refine .ite (fun _ => ?_) (.refl u)
    refine .trans (.trans (.trans ?_ (raise_control _ _ _).stores) (afterIsolation_settled _ _).stores) (settle_stores _)
    exact .of_same

theorem execStartRedExpiry_ends (dt : Nat) (s : State) : EndsKept s (execStartRedExpiry dt s) := by
  refine live_ends (fun u => .ite (fun _ => ?_) (.refl u))
  refine .trans (.trans ?_ (changeStage_settled _ _ _).stores) (settle_stores _)
  exact .of_same

theorem execStall_ends (dt : Nat) (s : State) : EndsKept s (execStall dt s) := by
  refine live_ends (fun u => ?_)
  split
  · exact .ite (fun _ => ((raise_control u _ _).stores.trans (controlled_control _ _ _).stores).trans (settle_stores _)) (.refl u)
  · exact .refl u

theorem execRedAmberExpiry_ends (dt : Nat) (g : GroupId) (s : State) : EndsKept s (execRedAmberExpiry dt g s) :=
  live_ends (fun u => .ite
    (fun _ => ((setGroup_control u g { u.groups[g] with timer := none } rfl).stores.trans (tryGreen_groupsOnly _ _).stores).trans
      (settle_stores _))
    (.refl u))

theorem unblank_stores (s : State) : StoresKept s s.unblank := .of_same

/-- The mark is counted, the changes applied, the readings taken, the blanking counted down. -/
theorem execHalfCycleMark_ends (dt : Nat) (values : Vector Nat 24) (s : State) : EndsKept s (execHalfCycleMark dt values s) := by
  refine live_ends (fun u => ?_)
  have hread : StoresKept u (u.countMark.applyTargets.sampleSet u.drive.records values) :=
    ((countMark_stores u).trans (applyTargets_lamp _).stores).trans (sampleSet_lamp _ _ _).stores
  exact (hread.trans (unblank_stores _)).trans (settle_stores _)

theorem execFlashPhaseEdge_ends (dt : Nat) (s : State) : EndsKept s (execFlashPhaseEdge dt s) := by
  refine live_ends (fun u => .ite (fun _ => ?_) (.refl u))
  refine .trans ?_ (settle_stores _)
  exact .of_same

theorem pinAt_stores (s : State) (level : Bool) (lasted : Nat) : StoresKept s (s.pinAt level lasted) := .of_same

theorem execDriveEnFall_ends (p : PinTime) (s : State) : EndsKept s (execDriveEnFall p s) :=
  live_ends (fun u => .ite (fun _ => ((pinAt_stores u _ _).trans (driveFall_stores _)).trans (settle_stores _)) (pinAt_stores u _ _))

theorem execDriveEnRise_ends (p : PinTime) (s : State) : EndsKept s (execDriveEnRise p s) :=
  live_ends (fun u => .ite (fun _ => ((pinAt_stores u _ _).trans (driveRise_stores _)).trans (settle_stores _)) (pinAt_stores u _ _))

theorem execMainsLost_ends (dt : Nat) (s : State) : EndsKept s (execMainsLost dt s) := by
  refine live_ends (fun u => ?_)
  split
  · exact .ite (fun _ => (loseMains_stores u).trans (settle_stores _)) (.refl u)
  · exact .refl u

theorem execProbeReturn_ends (dt : Nat) (n : CircuitId) (amplitude width : Nat) (s : State) :
    EndsKept s (execProbeReturn dt n amplitude width s) := by
  refine live_ends (fun u => ?_)
  split
  · exact .refl u
  · exact .ite (fun _ => (moveCore_lamp u n _).stores.trans (settle_stores _)) (.refl u)

theorem execLeakageTestStart_ends (dt : Nat) (s : State) : EndsKept s (execLeakageTestStart dt s) := by
  refine live_ends (fun u => ?_)
  split
  · exact .of_same
  · exact .refl u

theorem execLeakageResult_ends (dt : Nat) (current : Nat) (s : State) : EndsKept s (execLeakageResult dt current s) := by
  refine live_ends (fun u => ?_)
  split
  · exact .refl u
  · refine .ite (fun _ => ?_) (.refl u)
    refine .trans ?_ (moveCore_lamp _ _ _).stores
    exact .of_same

theorem execStationResetCarriedOut_ends (dt : Nat) (s : State) : EndsKept s (execStationResetCarriedOut dt s) :=
  live_ends (fun u => .ite (fun _ => wiped_stores u _ _ _ _) (.refl u))

theorem execMinExpiry_ends (dt : Nat) (s : State) : EndsKept s (execMinExpiry dt s) :=
  live_ends (fun u => .ite (fun _ => (minEnded_settled u).stores.trans (settle_stores _)) (.refl u))

theorem execExtensionDeadline_ends (dt : Nat) (s : State) : EndsKept s (execExtensionDeadline dt s) :=
  live_ends (fun u => .ite (fun _ => (stepEnd_settled u).stores.trans (settle_stores _)) (.refl u))

theorem execRedAmberDue_ends (dt : Nat) (g : GroupId) (s : State) : EndsKept s (execRedAmberDue dt g s) :=
  live_ends (fun u => .ite (fun _ => (tryRedAmber_groupsOnly u g).stores.trans (settle_stores _)) (.refl u))

theorem execEarliestGreenDue_ends (dt : Nat) (g : GroupId) (s : State) : EndsKept s (execEarliestGreenDue dt g s) :=
  live_ends (fun u => .ite (fun _ => (tryGreen_groupsOnly u g).stores.trans (settle_stores _)) (.refl u))

theorem execAmberExpiry_ends (dt : Nat) (g : GroupId) (s : State) : EndsKept s (execAmberExpiry dt g s) :=
  live_ends (fun u => .ite (fun _ => (endTermination_groupsOnly u g).stores.trans (settle_stores _)) (.refl u))

theorem execClearanceExpiry_ends (dt : Nat) (g : GroupId) (s : State) : EndsKept s (execClearanceExpiry dt g s) :=
  live_ends (fun u => .ite
    (fun _ => ((endTermination_groupsOnly u g).trans (retryAround_groupsOnly _ g)).stores.trans (settle_stores _)) (.refl u))

theorem execProbeRequest_ends (dt : Nat) (n : CircuitId) (s : State) : EndsKept s (execProbeRequest dt n s) :=
  live_ends (fun u => .ite (fun _ => (setCore_lamp u n _).stores) (.refl u))

theorem execFailRedExpiry_ends (dt : Nat) (s : State) : EndsKept s (execFailRedExpiry dt s) :=
  live_ends (fun u => .ite (fun _ => (toFlash_control u _).stores.trans (settle_stores _)) (.refl u))

/-- Every command keeps the sizes and the forms, in every state. -/
theorem exec_ends (c : Instr) (s : State) : EndsKept s (exec c s) := by
  cases hframe : frameOf c with
  | some f =>
    rw [exec_frameOf c f hframe]
    exact live_endsLimits _ _ _ (handOn_limits f)
  | none =>
    cases c with
    | echo | peek | load | commit | retire | clearCounters | stageFlagClear | mgmtStatusClear | clearProving | coreRetest
    | stationReset | protection | callDemand | plan | force | hold | release | allRed | resume | flash | dark | time =>
      cases hframe
    | powerOnReset p => exact .of_next ((elapse_stores p.dt s).trans (wiped_stores _ _ _ _ _))
    | resetEnd dt ident bench driveEn => exact execResetEnd_ends dt ident bench driveEn s
    | stationResetCarriedOut dt => exact execStationResetCarriedOut_ends dt s
    | keepAliveMark dt => exact execKeepAliveMark_ends dt s
    | markEnd dt => exact execMarkEnd_ends dt s
    | validMark dt width => exact execValidMark_ends dt width s
    | invertedMark dt width => exact execInvertedMark_ends dt width s
    | startMarker dt => exact live_ends startMarker_stores
    | invertedStartMarker dt => exact execInvertedStartMarker_ends dt s
    | dataByte dt b => exact live_ends (fun u => dataByte_stores u b)
    | invalidLineSymbol dt => exact live_ends (f := State.symbol) (fun _ => .of_same)
    | discardingSilence dt => exact execDiscardingSilence_ends dt s
    | seekingTimeout dt => exact execSeekingTimeout_ends dt s
    | silenceWatchdog dt => exact execSilenceWatchdog_ends dt s
    | endMarker dt => exact live_endsLimits dt _ s endMarker_limits
    | transmissionStart dt => exact execTransmissionStart_ends dt s
    | transmissionEnd dt => exact execTransmissionEnd_ends dt s
    | insertionAttempt dt => exact execInsertionAttempt_ends dt s
    | imageWriteEnd dt => exact execImageWriteEnd_ends dt s
    | maskWriteEnd dt => exact execMaskWriteEnd_ends dt s
    | contactSample dt levels => exact execContactSample_ends dt levels s
    | heldExtension dt k => exact execHeldExtension_ends dt k s
    | cabinetClockTick dt => exact execCabinetClockTick_ends dt s
    | supervisionExpiry dt => exact execSupervisionExpiry_ends dt s
    | startRedExpiry dt => exact execStartRedExpiry_ends dt s
    | minExpiry dt => exact execMinExpiry_ends dt s
    | extensionDeadline dt => exact execExtensionDeadline_ends dt s
    | stall dt => exact execStall_ends dt s
    | redAmberDue dt g => exact execRedAmberDue_ends dt g s
    | earliestGreenDue dt g => exact execEarliestGreenDue_ends dt g s
    | redAmberExpiry dt g => exact execRedAmberExpiry_ends dt g s
    | amberExpiry dt g => exact execAmberExpiry_ends dt g s
    | clearanceExpiry dt g => exact execClearanceExpiry_ends dt g s
    | halfCycleMark dt values => exact execHalfCycleMark_ends dt values s
    | flashPhaseEdge dt => exact execFlashPhaseEdge_ends dt s
    | driveEnFall p => exact execDriveEnFall_ends p s
    | driveEnRise p => exact execDriveEnRise_ends p s
    | mainsLost dt => exact execMainsLost_ends dt s
    | probeRequest dt n => exact execProbeRequest_ends dt n s
    | probeReturn dt n amplitude width => exact execProbeReturn_ends dt n amplitude width s
    | leakageTestStart dt => exact execLeakageTestStart_ends dt s
    | leakageResult dt current => exact execLeakageResult_ends dt current s
    | failRedExpiry dt => exact execFailRedExpiry_ends dt s

/-- A step keeps the sizes and the forms; taking a command off the queue touches neither. -/
theorem step_limits {s t : State} (h : step s = .next t) : LimitsKept s t := by
  unfold step at h
  split at h
  · cases h
    exact (StoresKept.refl _).limits
  · rename_i c rest _
    exact LimitsKept.trans (StoresKept.limits .of_same) (exec_ends c { s with pending := rest } t h)

/-- Settles O55: `step_limits` holds of every command, since each is made of operations that keep the limits. -/
theorem listsAndMemoriesKept : Obligations.ListsAndMemoriesKept :=
  ⟨fun _ _ hs h => (step_limits h).lists hs, fun _ _ hs h => (step_limits h).distinct hs, fun _ _ hs h => (step_limits h).memories hs⟩

end Sys2Proof.Machine
end

section
/-! PROOFS. The two resets, RING OUT, the insertion queue and the notices (R1, R2, R16 to R22, R57, R58, R174 to R178). -/

namespace Sys2Proof.Machine

open Sys2Proof.Safety

/-! ### Resets -/

/-- What either reset leaves (R17, R22, R58): empty queues that count nothing, RING OUT silent, every output OFF, no alarm, no latch,
the store as it was. -/
theorem wiped_empties (s : State) (phase : ResetPhase) (clock : Word) (clockSince : Nat) (last : CauseRecord) :
    let t := s.wiped phase clock clockSince last
    t.ring.transit = [] ∧ t.ring.insertion = [] ∧ t.ring.nextAttempt = none ∧ t.ring.out = .idle ∧
      t.ring.counters.noticeLost = 0 ∧ t.ring.counters.insertAbandoned = 0 ∧
      (∀ n : CircuitId, t.drive.records[n].applied = false) ∧ t.alarms.list = [] ∧ t.fallback.latch = false ∧ t.nv = s.nv :=
  ⟨rfl, rfl, rfl, rfl, rfl, rfl, fun n => by simp [State.wiped, State.reset], rfl, rfl, rfl⟩

/-- A station reset is due when its carrier has been sent and the store is IDLE (R57). -/
theorem stationResetDue_iff (s : State) :
    s.stationResetDue = true ↔ s.mgmt.stationReset = .taken true ∧ s.mgmt.store = .idle := by
  simp [State.stationResetDue]

theorem exec_stationResetCarriedOut (dt : Nat) (s : State) (h : s.phase = .notInReset) :
    exec (.stationResetCarriedOut dt) s = .next (if s.stationResetDue then
      (elapse dt s).wiped (.station (s.now + dt)) s.seq.clock s.seq.clockSince s.fallback.last else elapse dt s) :=
  live_next dt _ s h

/-- Settles O5: both resets end in `wiped`, whose empty queues and outputs `wiped_empties` names. -/
theorem resetsWipe : Obligations.ResetsWipe := by
  intro dt held s
  refine ⟨⟨_, rfl, ?_, wiped_empties (elapse dt s) _ _ _ _, rfl, rfl⟩, fun hphase htaken hidle => ?_, fun hphase hnot => ?_⟩
  · show ResetPhase.powerOn _ = ResetPhase.powerOn _
    unfold State.releasedAt
    rw [elapse_phase]
    cases s.phase <;> rfl
  · rw [exec_stationResetCarriedOut dt s hphase, if_pos ((stationResetDue_iff s).mpr ⟨htaken, hidle⟩)]
    exact ⟨_, rfl, rfl, wiped_empties (elapse dt s) _ _ _ _, rfl, rfl, rfl⟩
  · rw [exec_stationResetCarriedOut dt s hphase, if_neg (fun hdue => hnot ((stationResetDue_iff s).mp hdue))]

/-! ### RING OUT -/

theorem exec_keepAliveMark (dt : Nat) (s : State) (h : s.phase = .notInReset) (hout : s.ring.out = .idle)
    (hdue : s.ring.idleSince + 4000 ≤ s.now + dt) :
    exec (.keepAliveMark dt) s = .next { elapse dt s with ring := { s.ring with out := .mark (s.now + dt + 8) } } := by
  simp only [exec, execKeepAliveMark, live_next _ _ _ h, elapse_ring, elapse_now, hout, hdue, if_true]

theorem exec_markEnd (dt ends : Nat) (s : State) (h : s.phase = .notInReset) (hout : s.ring.out = .mark ends)
    (hdue : ends ≤ s.now + dt) :
    exec (.markEnd dt) s = .next { elapse dt s with ring := { s.ring with out := .idle, idleSince := s.now + dt } } := by
  simp only [exec, execMarkEnd, live_next _ _ _ h, elapse_ring, elapse_now, hout, hdue, if_true]

theorem exec_transmissionStart (dt : Nat) (s : State) (h : s.phase = .notInReset) (q : QueuedFrame) (rest : List QueuedFrame)
    (hout : s.ring.out = .idle) (htransit : s.ring.transit = q :: rest) :
    exec (.transmissionStart dt) s = .next { elapse dt s with ring := { s.ring with
      transit := rest
      out := .frame q.frame.forwarded q.frame.forwarded.check q.carriesReset (s.now + dt + q.frame.lineMicros) } } := by
  simp only [exec, execTransmissionStart, live_next _ _ _ h, elapse_ring, elapse_now, hout, htransit]
  rfl

theorem exec_transmissionEnd (dt ends : Nat) (s : State) (h : s.phase = .notInReset) (f : Frame) (check : Half) (carrier : Bool)
    (hout : s.ring.out = .frame f check carrier ends) (hdue : ends ≤ s.now + dt) :
    exec (.transmissionEnd dt) s = .next { elapse dt s with
      ring := { s.ring with out := .idle, idleSince := s.now + dt }
      mgmt := { s.mgmt with
        stationReset := if carrier then s.mgmt.stationReset.carrierGone else s.mgmt.stationReset } } := by
  simp only [exec, execTransmissionEnd, live_next _ _ _ h, elapse_ring, elapse_mgmt, elapse_now, hout, hdue, if_true]

/-- The symbols of a frame with its own check: start marker, bytes, end marker (R1, 1.4). -/
theorem symbols_check (f : Frame) : f.symbols f.check = .startMarker :: (f.bytes.map .data ++ [.endMarker]) := rfl

/-- While a frame is on the line one symbol is sent in each byte time, and none after the last. -/
theorem lineSymbol_frame_within (f : Frame) (carries : Bool) (start later : Nat) :
    (OutPort.frame f f.check carries (start + f.lineMicros)).lineSymbol (start + later) =
      if later < f.lineMicros then
        ((f.symbols f.check)[later / 8]?).map (fun k => { sense := .normal, kind := k })
      else none := by
  rw [lineSymbol_frame]
  split
  · rfl
  · rename_i hpast
    rw [lineMicros_eq_symbols f f.check] at hpast
    rw [List.getElem?_eq_none (by omega)]
    rfl

/-- A mark is on the line for the byte time that RING OUT is busy with it. -/
theorem lineSymbol_mark (start later : Nat) :
    (OutPort.mark (start + 8)).lineSymbol (start + later) =
      if later < 8 then some { sense := .normal, kind := .mark 1200 } else none := by
  simp only [OutPort.lineSymbol, markPulse, Nat.add_lt_add_iff_left]

/-- Settles O8, command by command; the symbols on the line by `lineSymbol_mark` and `lineSymbol_frame_within`. -/
theorem ringOutSends : Obligations.RingOutSends := by
  intro dt s hphase
  refine ⟨exec_keepAliveMark dt s hphase, fun ends => exec_markEnd dt ends s hphase,
    fun q rest => exec_transmissionStart dt s hphase q rest, fun f check ends hout hdue => ?_,
    fun f check ends sent hout hdue htaken => ?_, fun hout => ?_, fun hout hdue => ?_, rfl, fun f carrier start later => ⟨?_, ?_⟩⟩
  · exact exec_transmissionEnd dt ends s hphase f check false hout hdue
  · rw [exec_transmissionEnd dt ends s hphase f check true hout hdue, htaken]
    rfl
  · rw [State.ringOut, hout]
    rfl
  · exact ⟨_, exec_keepAliveMark dt s hphase hout hdue, lineSymbol_mark (s.now + dt)⟩
  · exact lineMicros_eq_symbols f f.check
  · exact lineSymbol_frame_within f carrier start later

/-! ### Insertion -/

theorem exec_insertionAttempt (dt at_ : Nat) (s : State) (e : InsertionEntry) (rest : List InsertionEntry)
    (h : s.phase = .notInReset) (hqueue : s.ring.insertion = e :: rest) (hnext : s.ring.nextAttempt = some at_)
    (hdue : at_ ≤ s.now + dt) :
    exec (.insertionAttempt dt) s =
      .next (if s.mayInsert then (elapse dt s).insertHead e rest else (elapse dt s).deferHead e rest) := by
  have hattempt : (elapse dt s).attemptDue = true := by simp [State.attemptDue, hnext, hdue]
  simp only [exec, execInsertionAttempt, live_next _ _ _ h, elapse_ring, hqueue, hattempt, if_true]
  rfl

/-- The three conditions of an insertion (R20). -/
theorem mayInsert_iff (s : State) :
    s.mayInsert = true ↔ s.ring.transit = [] ∧ s.ring.out = .idle ∧ s.ring.reception = .waiting := by
  have hout : s.ring.out.isIdle = true ↔ s.ring.out = .idle := by cases s.ring.out <;> simp [OutPort.isIdle]
  have hreception : s.ring.reception.receiving = false ↔ s.ring.reception = .waiting := by
    cases s.ring.reception <;> simp [Reception.receiving]
  simp only [State.mayInsert, Bool.and_eq_true, Bool.not_eq_true', List.isEmpty_iff, hout, hreception, and_assoc]

/-- A new head attempts at once (R19). -/
theorem headAttempt_eq (now : Nat) (queue : List InsertionEntry) :
    headAttempt now queue = if queue = [] then none else some now := by
  cases queue <;> rfl

/-- Settles O9: the attempt succeeds exactly under `mayInsert`; otherwise the deferral count decides, and the draw is a remainder. -/
theorem insertionAttempts : Obligations.InsertionAttempts := by
  intro dt at_ s e rest hphase hqueue hnext hdue
  rw [exec_insertionAttempt dt at_ s e rest hphase hqueue hnext hdue]
  refine ⟨fun hfree => ?_, fun hbusy hfew => ?_, fun hbusy hmany => ?_⟩
  · rw [if_pos ((mayInsert_iff s).mpr hfree), State.insertHead, headAttempt_eq]
    rfl
  · rw [if_neg (fun hmay => hbusy ((mayInsert_iff s).mp hmay)), State.deferHead, if_pos hfew]
    exact ⟨Config.backoffDraw s.ring.draws % 2 ^ min (e.deferrals + 1) 6, Nat.mod_lt _ (Nat.two_pow_pos _), rfl⟩
  · rw [if_neg (fun hmay => hbusy ((mayInsert_iff s).mp hmay)), State.deferHead, if_neg (by omega), headAttempt_eq]
    rfl

/-! ### Notices -/

/-- The SUPERVISOR_ID byte, 0x01 while EMPTY (R29, R60). -/
theorem cfgSupervisorId_eq (c : Cfg) :
    cfgSupervisorId c = match c with
      | none => 0x01
      | some m => Memory.read m 0 := by
  cases c <;> rfl

/-- A mask word of block 13, 0 while EMPTY (R176, R178). -/
theorem cfgHalf_masks (c : Cfg) (off : Nat) :
    cfgHalf c 13 off = match c with
      | none => 0
      | some m => halfOf (Memory.read m (0xD00 + off)) (Memory.read m (0xD00 + off + 1)) := by
  cases c with
  | none => exact (by decide : halfOf 0 0 = 0)
  | some m => rfl

/-- A stage end is reported when a configuration is active and its mask does not name the stage (R178). -/
theorem cfgStageEndMasked_eq_false (c : Cfg) (stage : Nat) :
    cfgStageEndMasked c stage = false ↔ c ≠ none ∧ (cfgHalf c 13 2).getLsbD stage = false := by
  cases c <;> simp [cfgStageEndMasked, cfgEmpty, setHas]

/-- An entry that a raise hands over is ACTIVE, of this code and subject, changed now: its notice is an ASSERT (R169, R175). -/
theorem noticePayload_of_raise {clock : Word} {masked : Bool} {code : AlarmCode} {subject : Byte} {a : Alarms} {e : AlarmEntry}
    (h : (raiseOn clock masked code subject a).2 = some e) :
    noticePayload e = [1, code.value, subject] ++ wordBytes clock ++ [e.occurrences] := by
  unfold raiseOn at h
  split at h
  · rename_i old hfound
    have hold : old.is code subject = true := by simpa using List.find?_some hfound
    obtain ⟨hcode, hsubject⟩ := (AlarmEntry.is_iff old code subject).mp hold
    split at h
    · cases h
    · cases h
      simp [noticePayload, raiseEntry, hcode, hsubject]
  · dsimp only at h
    split at h
    · cases h
      rfl
    · split at h
      · cases h
        rfl
      · cases h

/-- An entry that a clear hands over is CLEARED, of this code and subject, changed now: its notice is a CLEAR (R171, R175). -/
theorem noticePayload_of_clear {clock : Word} {masked : Bool} {code : AlarmCode} {subject : Byte} {a : Alarms} {e : AlarmEntry}
    (h : (clearOn clock masked code subject a).2 = some e) :
    noticePayload e = [2, code.value, subject] ++ wordBytes clock ++ [e.occurrences] := by
  unfold clearOn at h
  split at h
  · rename_i old hfound
    have hold := List.find?_some hfound
    simp only [Bool.and_eq_true, AlarmEntry.is_iff] at hold
    obtain ⟨⟨hcode, hsubject⟩, -⟩ := hold
    cases h
    simp [noticePayload, clearEntry, hcode, hsubject]
  · cases h

/-- A change that hands over no entry, or a masked one, leaves the ring port alone; any other hands over its notice (R174). -/
theorem noticeFor_eq (s : State) (masked : Bool) (changed : Option AlarmEntry) (payload : AlarmEntry → List Byte) :
    (∀ e, changed = some e → noticePayload e = payload e) →
    s.noticeFor masked changed = match changed with
      | none => s.ring
      | some e => if masked then s.ring else queueNotice s.now s.ownId (cfgSupervisorId s.cfg) (payload e) s.ring := by
  intro h
  cases changed with
  | none => cases masked <;> rfl
  | some e =>
    dsimp only
    rw [← h e rfl]
    cases masked <;> rfl

/-- A stage left: its flag is set, and the first setting of a stage that is not masked hands over the flag word (R177, R178). -/
theorem stageEnd_eq (s : State) (stage : Nat) :
    s.stageEnd stage =
      let flags := s.alarms.stageEnd ||| ((1 : Half) <<< stage)
      { s with
        alarms := { s.alarms with stageEnd := flags }
        ring := if s.alarms.stageEnd.getLsbD stage = false ∧ s.cfg ≠ none ∧ (cfgHalf s.cfg 13 2).getLsbD stage = false
          then queueNotice s.now s.ownId (cfgSupervisorId s.cfg) ([3, hiByte flags, loByte flags] ++ wordBytes s.seq.clock) s.ring
          else s.ring } := by
  have hfirst : (!setHas s.alarms.stageEnd stage && !cfgStageEndMasked s.cfg stage) = true ↔
      s.alarms.stageEnd.getLsbD stage = false ∧ s.cfg ≠ none ∧ (cfgHalf s.cfg 13 2).getLsbD stage = false := by
    rw [Bool.and_eq_true, Bool.not_eq_true', Bool.not_eq_true', cfgStageEndMasked_eq_false, setHas]
  simp only [State.stageEnd, hfirst]
  rfl

/-- A notice that finds room is appended and numbered (R18, R19). -/
theorem queueNotice_of_room (now : Nat) (own dest : Byte) (payload : List Byte) (r : RingPort) (h : r.insertion.length < 8) :
    queueNotice now own dest payload r =
      { r with
        insertion := r.insertion ++ [{ frame := noticeFrame own dest r.insertionSeq payload, deferrals := 0 }]
        insertionSeq := r.insertionSeq + 1
        nextAttempt := if r.insertion = [] then some now else r.nextAttempt } := by
  simp only [queueNotice, h, if_true, List.isEmpty_iff]

/-- A notice that finds 8 waiting is counted (R18). -/
theorem queueNotice_of_full (now : Nat) (own dest : Byte) (payload : List Byte) (r : RingPort) (h : 8 ≤ r.insertion.length) :
    queueNotice now own dest payload r =
      { r with counters := { r.counters with noticeLost := satInc r.counters.noticeLost } } := by
  rw [queueNotice, if_neg (by omega)]

/-- Settles O10: what a raise, a clear and a stage left hand over, and what queueing a notice does. -/
theorem noticeQueued : Obligations.NoticeQueued := by
  refine ⟨fun s code subject stage => ?_, fun now own dest payload r =>
    ⟨queueNotice_of_room now own dest payload r, queueNotice_of_full now own dest payload r⟩⟩
  refine ⟨?_, ?_, ?_⟩
  · rw [State.raise, noticeFor_eq s _ _ _ (fun _ => noticePayload_of_raise), cfgNoticeMasked, cfgHalf_masks, cfgSupervisorId_eq]
    rfl
  · rw [State.clear, noticeFor_eq s _ _ _ (fun _ => noticePayload_of_clear), cfgNoticeMasked, cfgHalf_masks, cfgSupervisorId_eq]
    rfl
  · rw [stageEnd_eq, cfgHalf_masks, cfgSupervisorId_eq]
    rfl

end Sys2Proof.Machine
end

section
/-! PROOFS. RING IN: marks and markers of either sense, the collection of a frame, the silence that takes the line DOWN (R3 to R14). -/

namespace Sys2Proof.Machine

open Sys2Proof.Safety

/-! ### The line -/

/-- The squelch window (R3). -/
theorem inSquelch_iff (width : Nat) : inSquelch width = true ↔ 800 ≤ width ∧ width ≤ 1600 := by
  simp [inSquelch]

/-- Entering UP touches the ring and the alarms alone. -/
theorem enterUp_same (s : State) : s.enterUp = { s with ring := s.enterUp.ring, alarms := s.enterUp.alarms } := rfl

/-- The line record in UP (R8, R9); the notice of LINE_DOWN leaves it alone. -/
theorem enterUp_line (s : State) :
    s.enterUp.ring.line = { s.ring.line with state := .up, invertedMarks := 0, lastActivity := s.now } :=
  (noticeFor_noticed _ _ _).line

/-- LINE_DOWN is cleared in UP (R9). -/
theorem enterUp_inactive (s : State) :
    ∀ e ∈ s.enterUp.alarms.list, e.code = .lineDown → e.subject = 255 → e.active = false :=
  clear_inactive _ .lineDown 255

/-- Entering DOWN touches the ring and the alarms alone. -/
theorem enterDown_same (s : State) : s.enterDown = { s with ring := s.enterDown.ring, alarms := s.enterDown.alarms } := rfl

/-- The ring port as the fall to DOWN leaves it (R9). -/
def RingPort.fallen (r : RingPort) : RingPort :=
  { r with
    line := { r.line with state := .down, markRun := 0, goodFrames := 0, invertedMarks := 0, lastMark := none }
    reception := .waiting
    counters := r.counters.newLine }

/-- After the fall only the notice of LINE_DOWN touches the ring port (R9, R174). -/
theorem enterDown_ring (s : State) : RingNoticed s.ring.fallen s.enterDown.ring :=
  noticeFor_noticed { s with ring := s.ring.fallen } _ _

/-- LINE_DOWN is raised in DOWN (R9). -/
theorem enterDown_alarms (s : State) :
    s.enterDown.alarms = (raiseOn s.seq.clock (cfgNoticeMasked s.cfg .lineDown) .lineDown 255 s.alarms).1 := rfl

/-! ### Valid marks -/

theorem validMark_of_down {s : State} (h : s.ring.line.state = .down) : s.validMark = s.onLine (fun l => l.seekFrom s.now) := by
  simp only [State.validMark, h]

theorem validMark_of_up {s : State} (h : s.ring.line.state = .up) :
    s.validMark = s.onLine (fun l => { l with lastActivity := s.now }) := by
  simp only [State.validMark, h]

theorem validMark_of_seeking {s : State} (h : s.ring.line.state = .seeking) : s.validMark = s.markSeeking := by
  simp only [State.validMark, h]

/-- The first mark of a run (R6). -/
theorem markSeeking_of_first {s : State} (h : s.ring.line.lastMark = none) :
    s.markSeeking = s.onLine (fun l =>
      { l with markRun := 1, lastMark := some s.now, lastActivity := s.now, invertedMarks := 0 }) := by
  simp only [State.markSeeking, h]

/-- A mark that goes on with a run; the third takes the line UP (R6). -/
theorem markSeeking_of_next {s : State} {last : Nat} (h : s.ring.line.lastMark = some last)
    (hspacing : 2000 ≤ s.now - last ∧ s.now - last ≤ 8000) :
    s.markSeeking =
      let u := s.onLine (fun l =>
        { l with markRun := min 3 (l.markRun + 1), lastMark := some s.now, lastActivity := s.now, invertedMarks := 0 })
      if min 3 (s.ring.line.markRun + 1) = 3 then u.enterUp else u := by
  simp only [State.markSeeking, h, hspacing, and_self, if_true]
  rfl

/-- A mark out of time takes the line DOWN and at once back to SEEKING (R6). -/
theorem markSeeking_of_misplaced {s : State} {last : Nat} (h : s.ring.line.lastMark = some last)
    (hspacing : ¬ (2000 ≤ s.now - last ∧ s.now - last ≤ 8000)) :
    s.markSeeking = s.enterDown.onLine (fun l => l.seekFrom s.now) := by
  simp only [State.markSeeking, h, hspacing, if_false]

theorem symbol_of_collecting {s : State} {bytes : List Byte} {bad : Bool} (h : s.ring.reception = .collecting bytes bad) :
    s.symbol = { s with ring := { s.ring with reception := .collecting bytes true } } := by
  simp only [State.symbol, h, Reception.symbol]

theorem symbol_of_discarding {s : State} {last : Nat} (h : s.ring.reception = .discarding last) :
    s.symbol = { s with ring := { s.ring with reception := .discarding s.now } } := by
  simp only [State.symbol, h, Reception.symbol]

/-- While a frame is received a mark of either sense is a symbol of it, whatever its width (R11, R13). -/
theorem exec_mark_of_receiving (dt width : Nat) (s : State) (h : s.phase = .notInReset) (hr : s.ring.reception ≠ .waiting) :
    exec (.validMark dt width) s = .next (elapse dt s).symbol ∧
      exec (.invertedMark dt width) s = .next (elapse dt s).symbol := by
  simp only [exec, execValidMark, execInvertedMark, live_next _ _ _ h, elapse_ring]
  cases hx : s.ring.reception with
  | waiting => exact absurd hx hr
  | collecting bytes bad => exact ⟨rfl, rfl⟩
  | discarding last => exact ⟨rfl, rfl⟩

theorem exec_validMark_of_waiting (dt width : Nat) (s : State) (h : s.phase = .notInReset) (hr : s.ring.reception = .waiting) :
    exec (.validMark dt width) s = .next (if inSquelch width then (elapse dt s).validMark else elapse dt s) := by
  simp only [exec, execValidMark, live_next _ _ _ h, elapse_ring, hr]

/-- Settles O11: in a frame by `exec_mark_of_receiving`; while waiting by the window and then by the line state. -/
theorem validMarks : Obligations.ValidMarks := by
  refine ⟨fun dt width s hphase => ⟨fun bytes bad hr => ?_, fun last hr => ?_⟩, fun dt width s hphase hr => ⟨?_, ?_⟩⟩
  · rw [(exec_mark_of_receiving dt width s hphase (by simp [hr])).1, symbol_of_collecting (s := elapse dt s) hr]
    rfl
  · rw [(exec_mark_of_receiving dt width s hphase (by simp [hr])).1, symbol_of_discarding (s := elapse dt s) hr]
    rfl
  · intro hout
    rw [exec_validMark_of_waiting dt width s hphase hr, if_neg (fun hin => hout ((inSquelch_iff width).mp hin))]
  · intro hlow hhigh
    have hexec : exec (.validMark dt width) s = .next (elapse dt s).validMark := by
      rw [exec_validMark_of_waiting dt width s hphase hr, if_pos ((inSquelch_iff width).mpr ⟨hlow, hhigh⟩)]
    rw [hexec]
    have hseek (hs : s.ring.line.state = .seeking) : (elapse dt s).validMark = (elapse dt s).markSeeking :=
      validMark_of_seeking hs
    refine ⟨fun hs => ?_, fun hs => ?_, fun hs hlast => ?_, fun last hs hlast h2 h8 hfew => ?_, fun last hs hlast h2 h8 hthird => ?_,
      fun last hs hlast hmisplaced => ?_⟩
    · rw [validMark_of_down (s := elapse dt s) hs]
      rfl
    · rw [validMark_of_up (s := elapse dt s) hs]
      rfl
    · rw [hseek hs, markSeeking_of_first (s := elapse dt s) hlast]
      rfl
    · have hrun : min 3 (s.ring.line.markRun + 1) = s.ring.line.markRun + 1 := by omega
      have hne : ¬ s.ring.line.markRun + 1 = 3 := by omega
      rw [hseek hs, markSeeking_of_next (s := elapse dt s) hlast ⟨h2, h8⟩]
      simp only [elapse_ring, State.onLine, hrun, hne, if_false]
      rfl
    · have hrun : min 3 (s.ring.line.markRun + 1) = 3 := by omega
      rw [hseek hs, markSeeking_of_next (s := elapse dt s) hlast ⟨h2, h8⟩]
      simp only [elapse_ring, State.onLine, hrun, if_true]
      exact ⟨_, rfl, enterUp_same _, enterUp_line _, enterUp_inactive _⟩
    · rw [hseek hs, markSeeking_of_misplaced (s := elapse dt s) hlast hmisplaced]
      refine ⟨_, rfl, rfl, ?_, rfl⟩
      simp only [State.onLine, (enterDown_ring (elapse dt s)).line]
      rfl

/-! ### The collection of a frame -/

/-- The line record at a frame start: activity, and in SEEKING the end of the mark run (R6, R8). -/
def LineRecord.frameStarted (l : LineRecord) (now : Nat) : LineRecord :=
  if l.state = .seeking then { l with markRun := 0, lastMark := none, lastActivity := now } else { l with lastActivity := now }

/-- A frame start in SEEKING or UP opens a frame (R6, R8, R11). -/
theorem frameStart_eq {s : State} (h : s.ring.line.state ≠ .down) :
    s.frameStart =
      { s with ring := { s.ring with line := s.ring.line.frameStarted s.now, reception := .collecting [] false } } := by
  cases hs : s.ring.line.state with
  | down => exact absurd hs h
  | seeking => simp only [State.frameStart, State.onLine, LineRecord.frameStarted, hs, if_true]
  | up => simp only [State.frameStart, State.onLine, LineRecord.frameStarted, hs, reduceCtorEq, if_false]

theorem startMarker_of_down {s : State} (h : s.ring.line.state = .down) : s.startMarker = s := by
  simp only [State.startMarker, h]

/-- A start marker while no frame is open (R6, R8, R13). -/
theorem startMarker_of_closed {s : State} (h : s.ring.line.state ≠ .down)
    (hr : ∀ bytes bad, s.ring.reception ≠ .collecting bytes bad) :
    s.startMarker =
      { s with ring := { s.ring with line := s.ring.line.frameStarted s.now, reception := .collecting [] false } } := by
  rw [← frameStart_eq h]
  unfold State.startMarker
  split
  · exact absurd ‹_› h
  all_goals
    split
    · exact absurd ‹_› (hr _ _)
    · rfl
    · rfl

/-- A start marker ends an open frame, which is bad by it, and opens another (R11, R14). -/
theorem startMarker_of_open {s : State} {bytes : List Byte} {bad : Bool} {e : FrameError} (h : s.ring.line.state ≠ .down)
    (hr : s.ring.reception = .collecting bytes bad) (he : frameError bytes true = some e) :
    s.startMarker = { s with ring := { s.ring with
      line := s.ring.line.frameStarted s.now, reception := .collecting [] false, counters := s.ring.counters.count e } } := by
  have hended : s.startMarker = (s.frameEnded bytes true).frameStart := by
    cases hs : s.ring.line.state with
    | down => exact absurd hs h
    | seeking => simp only [State.startMarker, hs, hr]
    | up => simp only [State.startMarker, hs, hr]
  rw [hended, frameEnded_of_error he]
  exact frameStart_eq h

theorem exec_startMarker (dt : Nat) (s : State) (h : s.phase = .notInReset) :
    exec (.startMarker dt) s = .next (elapse dt s).startMarker := live_next dt _ s h

theorem exec_dataByte (dt : Nat) (b : Byte) (s : State) (h : s.phase = .notInReset) :
    exec (.dataByte dt b) s = .next ((elapse dt s).dataByte b) :=
  live_next dt (fun s => s.dataByte b) s h

theorem exec_invalidLineSymbol (dt : Nat) (s : State) (h : s.phase = .notInReset) :
    exec (.invalidLineSymbol dt) s = .next (elapse dt s).symbol := live_next dt _ s h

theorem exec_endMarker (dt : Nat) (s : State) (h : s.phase = .notInReset) :
    exec (.endMarker dt) s = .next (elapse dt s).endMarker := live_next dt _ s h

/-- Settles O13, symbol by symbol, each by what RING IN is doing. -/
theorem framesCollected : Obligations.FramesCollected := by
  intro dt b s hphase
  refine ⟨fun hs => ?_, fun hs hr => ?_, fun bytes bad hs hr => ?_, fun bytes bad hr => ⟨fun hroom => ?_, fun hfull => ?_, ?_⟩,
    fun last hr => ⟨fun hsilent => ?_, ?_, ?_, ?_⟩⟩
  · rw [exec_startMarker dt s hphase, startMarker_of_down (s := elapse dt s) hs]
  · rw [exec_startMarker dt s hphase, startMarker_of_closed (s := elapse dt s) hs hr]
    rfl
  · obtain ⟨e, he⟩ := frameError_of_badSymbol bytes
    refine ⟨e, he, ?_⟩
    rw [exec_startMarker dt s hphase, startMarker_of_open (s := elapse dt s) hs hr he]
    rfl
  · rw [exec_dataByte dt b s hphase]
    simp only [State.dataByte, elapse_ring, hr, hroom, if_true]
  · rw [exec_dataByte dt b s hphase]
    simp only [State.dataByte, elapse_ring, hr, show ¬ bytes.length + 1 < 58 by omega, if_false]
    rfl
  · rw [exec_invalidLineSymbol dt s hphase, symbol_of_collecting (s := elapse dt s) hr]
    rfl
  · simp only [exec, execDiscardingSilence, live_next _ _ _ hphase, elapse_ring, elapse_now, hr, hsilent, if_true]
    rfl
  · rw [exec_dataByte dt b s hphase]
    simp only [State.dataByte, elapse_ring, hr]
    rfl
  · rw [exec_invalidLineSymbol dt s hphase, symbol_of_discarding (s := elapse dt s) hr]
    rfl
  · rw [exec_endMarker dt s hphase]
    simp only [State.endMarker, elapse_ring, hr]
    rfl

/-! ### Symbols of the opposite sense -/

/-- In DOWN a flip changes the polarity and ends the count of inverted marks (R10). -/
theorem LineRecord.flip_of_down {l : LineRecord} (h : l.state = .down) :
    l.flip = { l with polarity := if l.polarity = .normal then .inverted else .normal, invertedMarks := 0 } := by
  cases hp : l.polarity <;> simp only [LineRecord.flip, h, hp, reduceCtorEq, if_true, if_false]

/-- A flip in SEEKING also ends the counts of the line (R10). -/
theorem LineRecord.flip_of_seeking {l : LineRecord} (h : l.state = .seeking) :
    l.flip = { l with
      polarity := if l.polarity = .normal then .inverted else .normal, invertedMarks := 0, goodFrames := 0, markRun := 0
      lastMark := none } := by
  cases hp : l.polarity <;> simp only [LineRecord.flip, h, hp, reduceCtorEq, if_true, if_false]

theorem exec_invertedMark_of_waiting (dt width : Nat) (s : State) (h : s.phase = .notInReset) (hr : s.ring.reception = .waiting) :
    exec (.invertedMark dt width) s =
      .next (if inSquelch width = true ∧ s.ring.line.state ≠ .up then (elapse dt s).invertedMarkCounted else elapse dt s) := by
  simp only [exec, execInvertedMark, live_next _ _ _ h, elapse_ring, hr]
  cases hs : s.ring.line.state <;> simp

theorem invertedMarkCounted_of_few {s : State} (h : s.ring.line.invertedMarks + 1 < 3) :
    s.invertedMarkCounted = s.onLine (fun l => { l with invertedMarks := l.invertedMarks + 1 }) := by
  rw [State.invertedMarkCounted, if_pos h]

/-- The third inverted mark flips the polarity and is a valid mark (R10): from DOWN it enters SEEKING, in SEEKING it begins a run. -/
theorem invertedMarkCounted_of_third {s : State} (h : 3 ≤ s.ring.line.invertedMarks + 1) (hup : s.ring.line.state ≠ .up) :
    s.invertedMarkCounted = { s with ring := { s.ring with line := { s.ring.line with
      state := .seeking, polarity := if s.ring.line.polarity = .normal then .inverted else .normal
      markRun := 1, lastMark := some s.now, lastActivity := s.now, goodFrames := 0, invertedMarks := 0 } } } := by
  rw [State.invertedMarkCounted, if_neg (by omega)]
  cases hs : s.ring.line.state with
  | up => exact absurd hs hup
  | down =>
    have hflip := LineRecord.flip_of_down hs
    rw [validMark_of_down (by simp only [State.onLine, hflip, hs])]
    simp only [State.onLine, hflip, LineRecord.seekFrom]
  | seeking =>
    have hflip := LineRecord.flip_of_seeking hs
    rw [validMark_of_seeking (by simp only [State.onLine, hflip, hs]), markSeeking_of_first (by simp only [State.onLine, hflip])]
    simp only [State.onLine, hflip, hs]

/-- In DOWN and SEEKING an inverted start marker flips the polarity and is a start marker (R5, R10). -/
theorem exec_invertedStartMarker_of_flip (dt : Nat) (s : State) (h : s.phase = .notInReset) (hs : s.ring.line.state ≠ .up) :
    exec (.invertedStartMarker dt) s = .next ((elapse dt s).onLine LineRecord.flip).startMarker := by
  simp only [exec, execInvertedStartMarker, live_next _ _ _ h, elapse_ring]
  cases hx : s.ring.line.state with
  | up => exact absurd hx hs
  | down => rfl
  | seeking => rfl

/-- In UP an inverted start marker is no frame start (R8, R13). -/
theorem exec_invertedStartMarker_of_up (dt : Nat) (s : State) (h : s.phase = .notInReset) (hs : s.ring.line.state = .up) :
    exec (.invertedStartMarker dt) s =
      .next { elapse dt s with ring := { s.ring with reception := s.ring.reception.ignored (s.now + dt) } } := by
  simp only [exec, execInvertedStartMarker, live_next _ _ _ h, elapse_ring, elapse_now, hs]

/-- Only discarding notes a symbol that is ignored (R13). -/
theorem ignored_eq_self {r : Reception} (h : ∀ t, r ≠ .discarding t) (now : Nat) : r.ignored now = r := by
  cases r with
  | waiting => rfl
  | collecting bytes bad => rfl
  | discarding t => exact absurd rfl (h t)

/-- Settles O12: marks by `exec_mark_of_receiving` and the count of inverted marks, start markers by the line state. -/
theorem invertedSymbols : Obligations.InvertedSymbols := by
  intro dt width s hphase
  have hopen (hs : s.ring.line.state = .seeking) : ((elapse dt s).onLine LineRecord.flip).ring.line.state ≠ .down := by
    simp only [State.onLine, elapse_ring, LineRecord.flip_of_seeking hs, hs]
    decide
  refine ⟨fun bytes bad hr => ?_, fun last hr => ⟨?_, fun hs => ?_⟩, fun hr hignored => ?_, fun hr hin hs hfew => ?_,
    fun hr hin hs hthird => ?_, fun hs hr => ?_, fun hs => ?_, fun hs hr => ?_, fun bytes bad hs hr => ?_⟩
  · rw [(exec_mark_of_receiving dt width s hphase (by simp [hr])).2, symbol_of_collecting (s := elapse dt s) hr]
    rfl
  · rw [(exec_mark_of_receiving dt width s hphase (by simp [hr])).2, symbol_of_discarding (s := elapse dt s) hr]
    rfl
  · rw [exec_invertedStartMarker_of_up dt s hphase hs, hr]
    rfl
  · rw [exec_invertedMark_of_waiting dt width s hphase hr, if_neg]
    rintro ⟨hin, hs⟩
    exact hignored.elim (fun hout => hout ((inSquelch_iff width).mp hin)) hs
  · rw [exec_invertedMark_of_waiting dt width s hphase hr, if_pos ⟨(inSquelch_iff width).mpr hin, hs⟩,
      invertedMarkCounted_of_few (s := elapse dt s) hfew]
    rfl
  · rw [exec_invertedMark_of_waiting dt width s hphase hr, if_pos ⟨(inSquelch_iff width).mpr hin, hs⟩,
      invertedMarkCounted_of_third (s := elapse dt s) hthird hs]
    rfl
  · rw [exec_invertedStartMarker_of_up dt s hphase hs, ignored_eq_self hr]
    rfl
  · rw [exec_invertedStartMarker_of_flip dt s hphase (by simp [hs]), startMarker_of_down]
    · simp only [State.onLine, elapse_ring, LineRecord.flip_of_down hs]
    · simp only [State.onLine, elapse_ring, LineRecord.flip_of_down hs, hs]
  · rw [exec_invertedStartMarker_of_flip dt s hphase (by simp [hs]), startMarker_of_closed (hopen hs) hr]
    simp only [State.onLine, elapse_ring, LineRecord.flip_of_seeking hs, LineRecord.frameStarted, hs, if_true]
    rfl
  · obtain ⟨e, he⟩ := frameError_of_badSymbol bytes
    refine ⟨e, he, ?_⟩
    rw [exec_invertedStartMarker_of_flip dt s hphase (by simp [hs]), startMarker_of_open (hopen hs) hr he]
    simp only [State.onLine, elapse_ring, LineRecord.flip_of_seeking hs, LineRecord.frameStarted, hs, if_true]
    rfl

/-! ### Silence -/

/-- What the fall to DOWN leaves and changes (R9). -/
theorem enterDown_falls (dt : Nat) (s : State) :
    let t := (elapse dt s).enterDown
    t = { elapse dt s with ring := t.ring, alarms := t.alarms } ∧
      t.ring.line = { s.ring.line with
        state := .down, markRun := 0, goodFrames := 0, invertedMarks := 0, lastMark := none } ∧
      t.ring.reception = .waiting ∧ t.ring.transit = s.ring.transit ∧ t.ring.out = s.ring.out ∧
      t.ring.counters.runt = 0 ∧ t.ring.counters.overlong = 0 ∧ t.ring.counters.lengthBad = 0 ∧
      t.ring.counters.crcBad = 0 ∧ t.ring.counters.symbolBad = 0 ∧
      t.ring.counters.transitOverrun = s.ring.counters.transitOverrun ∧
      t.alarms = (raiseOn s.seq.clock (cfgNoticeMasked s.cfg .lineDown) .lineDown 255 s.alarms).1 := by
  have hring := enterDown_ring (elapse dt s)
  refine ⟨enterDown_same _, hring.line, hring.reception, hring.transit, hring.out, ?_, ?_, ?_, ?_, ?_, ?_, enterDown_alarms _⟩
  all_goals
    rw [hring.counters]
    rfl

/-- Settles O14: each timeout takes the line DOWN in its own line state. -/
theorem silenceTakesLineDown : Obligations.SilenceTakesLineDown := by
  intro dt s hphase
  refine ⟨fun hs hdue => ⟨(elapse dt s).enterDown, ?_, enterDown_falls dt s⟩,
    fun hs hdue => ⟨(elapse dt s).enterDown, ?_, enterDown_falls dt s⟩⟩
  · simp only [exec, execSeekingTimeout, live_next _ _ _ hphase, elapse_ring, elapse_now, hs, hdue, if_true]
  · simp only [exec, execSilenceWatchdog, live_next _ _ _ hphase, elapse_ring, elapse_now, hs, hdue, if_true]

end Sys2Proof.Machine
end

section
/-! PROOFS. The validation of a frame, its bytes read back, the arrival of a good frame, and ECHO (R7, R12, R14, R15, R23, R112). -/

namespace Sys2Proof.Machine

open Sys2Proof.Safety

/-! ### Validation -/

/-- The five tests of an ended frame, each decided when those before it have passed (R14). -/
theorem frameError_cases (bytes : List Byte) (bad : Bool) :
    let short := bytes.length < 9
    let lengthWrong := (bytes[6]?.getD 0).toNat ≠ bytes.length - 9
    let checkWrong := crc (bytes.take (bytes.length - 2)) ≠ receivedCheck bytes
    (frameError bytes bad = some .runt ↔ short) ∧
    (frameError bytes bad = some .lengthBad ↔ ¬ short ∧ lengthWrong) ∧
    (frameError bytes bad = some .crcBad ↔ ¬ short ∧ ¬ lengthWrong ∧ checkWrong) ∧
    (frameError bytes bad = some .symbolBad ↔ ¬ short ∧ ¬ lengthWrong ∧ ¬ checkWrong ∧ bad = true) ∧
    (frameError bytes bad = none ↔ ¬ short ∧ ¬ lengthWrong ∧ ¬ checkWrong ∧ bad = false) := by
  dsimp only
  unfold frameError
  by_cases hshort : bytes.length < 9
  · simp [hshort]
  · by_cases hlength : (bytes[6]?.getD 0).toNat = bytes.length - 9
    · by_cases hcheck : crc (bytes.take (bytes.length - 2)) = receivedCheck bytes
      · simp only [ne_eq, hshort, hlength, hcheck, not_true_eq_false, if_false]
        cases bad <;> simp
      · simp only [ne_eq, hshort, hlength, hcheck, not_true_eq_false, not_false_eq_true, if_true, if_false]
        simp
    · simp only [ne_eq, hshort, hlength, not_false_eq_true, if_true, if_false]
      simp

/-- Settles O15: the tests by `frameError_cases`, the counter by `frameEnded_of_error`. -/
theorem framesValidated : Obligations.FramesValidated := by
  refine ⟨frameError_cases, fun dt s bytes bad e hphase hr he => ?_⟩
  have hended : exec (.endMarker dt) s = .next ((elapse dt s).frameEnded bytes bad) := by
    simp only [exec, execEndMarker, live_next _ _ _ hphase, State.endMarker, elapse_ring, hr]
  rw [hended, frameEnded_of_error he]
  cases e <;> rfl

/-! ### Bytes of a frame -/

/-- A 16-bit value is its two bytes. -/
theorem halfOf_bytes (h : Half) : halfOf (hiByte h) (loByte h) = h := by
  unfold halfOf hiByte loByte
  apply BitVec.eq_of_getLsbD_eq
  intro i hi
  rw [BitVec.getLsbD_append]
  simp only [BitVec.getLsbD_extractLsb']
  split
  · simp [*]
  · have : 8 + (i - 8) = i := by omega
    simp [this, show i - 8 < 8 by omega]

theorem body_length (f : Frame) : f.body.length = f.payload.length + 7 := by
  simp [Frame.body]

theorem bytes_length (f : Frame) : f.bytes.length = f.payload.length + 9 := by
  simp [Frame.bytes, body_length]

/-- The bytes before the check are header and payload. -/
theorem bytes_take_body (f : Frame) : f.bytes.take (f.bytes.length - 2) = f.body := by
  rw [bytes_length, Frame.bytes, List.take_left' (by rw [body_length]; omega)]

/-- The check received with a frame's bytes is the frame's check (R12). -/
theorem receivedCheck_bytes (f : Frame) : receivedCheck f.bytes = f.check := by
  have hhi : f.bytes[f.bytes.length - 2]? = some (hiByte f.check) := by
    rw [bytes_length, Frame.bytes, List.getElem?_append_right (by rw [body_length]; omega), body_length]
    simp
  have hlo : f.bytes[f.bytes.length - 1]? = some (loByte f.check) := by
    rw [bytes_length, Frame.bytes, List.getElem?_append_right (by rw [body_length]; omega), body_length]
    simp
  rw [receivedCheck, hhi, hlo]
  exact halfOf_bytes f.check

/-- The length byte of a frame that fits holds its payload's length (R179). -/
theorem lengthByte_bytes (f : Frame) (h : f.payload.length ≤ 48) : (f.bytes[6]?.getD 0).toNat = f.bytes.length - 9 := by
  have hbyte : f.bytes[6]?.getD 0 = BitVec.ofNat 8 f.payload.length := rfl
  rw [hbyte, bytes_length, BitVec.toNat_ofNat]
  omega

/-- The bytes of a frame read back as the frame (11.1). -/
theorem parseFrame_bytes (f : Frame) : parseFrame f.bytes = some f := by
  have hrest : parseFrame f.bytes = some { f with
      payload := (f.payload ++ [hiByte f.check, loByte f.check]).take
        ((f.payload ++ [hiByte f.check, loByte f.check]).length - 2) } := rfl
  rw [hrest, List.take_left' (by simp)]

/-- Settles O16: the bytes of a frame pass all five tests and read back. -/
theorem sentFramesReadBack : Obligations.SentFramesReadBack := by
  intro f hfits
  obtain ⟨-, -, -, -, hgood⟩ := frameError_cases f.bytes false
  refine ⟨hgood.mpr ⟨?_, ?_, ?_, rfl⟩, parseFrame_bytes f⟩
  · rw [bytes_length]
    omega
  · exact not_not_intro (lengthByte_bytes f hfits)
  · rw [bytes_take_body, receivedCheck_bytes]
    exact not_not_intro rfl

/-! ### The arrival of a good frame -/

theorem countGood_of_up {s : State} (h : s.ring.line.state = .up) : s.countGood = s := by
  simp only [State.countGood, h]

/-- The first good frame of SEEKING is counted (R7). -/
theorem countGood_of_first {s : State} (h : s.ring.line.state = .seeking) (hcount : s.ring.line.goodFrames = 0) :
    s.countGood = { s with ring := { s.ring with line := { s.ring.line with goodFrames := 1 } } } := by
  simp only [State.countGood, h, hcount]
  rfl

/-- The second takes the line UP (R7). -/
theorem countGood_of_second {s : State} (h : s.ring.line.state = .seeking) (hcount : 1 ≤ s.ring.line.goodFrames) :
    s.countGood = { s with ring := { s.ring with line := { s.ring.line with goodFrames := 2 } } }.enterUp := by
  have htwo : min 2 (s.ring.line.goodFrames + 1) = 2 := by omega
  simp only [State.countGood, h, htwo, if_true]

/-- What counting a good frame leaves of the line, by line state (R7, R9). -/
theorem received_cases (dt : Nat) (s : State) :
    (s.ring.line.state = .up → received dt s = (elapse dt s).waiting) ∧
    (s.ring.line.state = .seeking → s.ring.line.goodFrames = 0 →
      received dt s = { (elapse dt s).waiting with ring := { (elapse dt s).waiting.ring with
        line := { s.ring.line with goodFrames := 1 } } }) ∧
    (s.ring.line.state = .seeking → 1 ≤ s.ring.line.goodFrames →
      (received dt s).ring.line = { s.ring.line with
        state := .up, goodFrames := 2, invertedMarks := 0, lastActivity := s.now + dt } ∧
      ∀ e ∈ (received dt s).alarms.list, e.code = .lineDown → e.subject = 255 → e.active = false) := by
  refine ⟨fun hs => countGood_of_up hs, fun hs hcount => countGood_of_first (s := (elapse dt s).waiting) hs hcount,
    fun hs hcount => ?_⟩
  rw [received, countGood_of_second (s := (elapse dt s).waiting) hs hcount, enterUp_line]
  exact ⟨rfl, enterUp_inactive _⟩

/-- A CALL without a command code, or with one that names no command, is answered RANGE and does nothing (R112). -/
theorem callAnswer_of_unknown (s : State) (payload : List Byte)
    (h : ∀ code rest, payload = code :: rest → code.toNat = 0 ∨ 0x0A < code.toNat) : s.callAnswer payload = (.range, s) := by
  have hcommand : s.callCommand payload = (.range, s) := by
    cases payload with
    | nil => rfl
    | cons code rest =>
      have hcode := h code rest rfl
      have hother (c : Byte) (hc : 1 ≤ c.toNat ∧ c.toNat ≤ 0x0A) : code ≠ c := by
        rintro rfl
        omega
      simp only [State.callCommand, hother callPlan (by decide), hother callForce (by decide), hother callHold (by decide),
        hother callRelease (by decide), hother callAllRed (by decide), hother callFlash (by decide), hother callDark (by decide),
        hother callResume (by decide), hother callDemandCode (by decide), hother callTime (by decide), if_false]
  rw [State.callAnswer, hcommand]
  rfl

/-- A CALL of the supervisor is answered by `callAnswer` (R29). -/
theorem manage_of_call (s : State) (e : Env) (payload : List Byte) (h : FromSupervisor s e) :
    s.manage (envFrame kindCall e payload) =
      (answered s (envFrame kindCall e payload) (s.callAnswer payload).1 false, (s.callAnswer payload).2) := by
  have hsrc : (envFrame kindCall e payload).src = cfgSupervisorId s.cfg := h
  have hkind : (envFrame kindCall e payload).kind = kindCall := rfl
  have hpeek : kindCall ≠ kindPeek := by decide
  have hload : kindCall ≠ kindLoad := by decide
  simp only [State.manage, hkind, hpeek, hload, hsrc, if_true, if_false]
  rfl

/-- Settles O17: every command that hands on a good frame does the same, `exec_of_hands`; the full queue, the line and the unknown
CALL are then cases of `arrive`, `received` and `callAnswer`. -/
theorem goodFramesArrive : Obligations.GoodFramesArrive := by
  refine ⟨received_cases, fun i s f hf hphase hdown => ?_, fun i s f hands hfull => ?_, fun i s f hreceiving hf hfits hands => ?_,
    fun dt s e payload hands hreaches hsupervisor hunknown => ?_⟩
  · rw [exec_frameOf i f hf, live_next _ _ _ hphase]
    simp only [State.handOn, elapse_ring, hdown]
  · rw [exec_of_hands i s f hands, State.arrive, if_neg (by omega)]
  · rw [exec_of_hands _ s f hands, exec_of_hands i s f (Or.inl ⟨hreceiving, hf, hfits⟩)]
    rfl
  · have harrive := arrive_of_reaches (received dt s) (envFrame kindCall e payload) e (Or.inl rfl) rfl rfl rfl rfl hreaches
    rw [manage_of_call _ e payload hsupervisor, callAnswer_of_unknown _ payload hunknown] at harrive
    exact (exec_of_hands _ s _ hands).trans (congrArg _ harrive)

/-! ### ECHO -/

/-- The echo check compares every payload byte with its place XOR seq (R23). -/
theorem echoMatches_iff (f : Frame) :
    echoMatches f = true ↔ ∀ i b, f.payload[i]? = some b → b = BitVec.ofNat 8 i ^^^ f.seq := by
  simp only [echoMatches, List.all_eq_true, List.mem_range, decide_eq_true_eq]
  refine ⟨fun h i b hb => ?_, fun h i hi => ?_⟩
  · have hi := h i (List.getElem?_eq_some_iff.mp hb).1
    rwa [hb, Option.getD_some] at hi
  · have hb := List.getElem?_eq_getElem hi
    rw [hb, Option.getD_some]
    exact h i _ hb

/-- An ECHO is answered by `echoAnswer` (R23). -/
theorem manage_of_echo (s : State) (e : Env) (payload : List Byte) :
    s.manage (envFrame kindEcho e payload) =
      (answered s (envFrame kindEcho e payload) (s.echoAnswer (envFrame kindEcho e payload)).1 false,
        (s.echoAnswer (envFrame kindEcho e payload)).2) := by
  have hkind : (envFrame kindEcho e payload).kind = kindEcho := rfl
  have hpeek : kindEcho ≠ kindPeek := by decide
  have hload : kindEcho ≠ kindLoad := by decide
  have hcall : kindEcho ≠ kindCall := by decide
  simp only [State.manage, hkind, hpeek, hload, hcall, if_false]
  rfl

/-- Settles O23: the ECHO reaches `echoAnswer`, whose two branches are the two answers. -/
theorem echoAnswered : Obligations.EchoAnswered := by
  intro dt e p s hreceiving hfits hreaches
  have hexec := exec_of_reaches (.echo dt e p) s e kindEcho p rfl (Or.inr (Or.inr (Or.inr rfl))) hreceiving hfits hreaches
  rw [manage_of_echo] at hexec
  have hmatches := echoMatches_iff (envFrame kindEcho e p)
  refine ⟨fun htaken => ?_, fun hcheck hdiffers => ?_⟩
  · have hanswer : (received dt s).echoAnswer (envFrame kindEcho e p) = (.taken, received dt s) := by
      rw [State.echoAnswer, if_neg]
      rw [received_cfg]
      rcases htaken with hoff | hsame
      · simp [hoff]
      · simp [hmatches.mpr hsame]
    exact hexec.trans (by rw [Instr.dt, hanswer]; rfl)
  · have hfalse : echoMatches (envFrame kindEcho e p) = false := by
      rw [← Bool.not_eq_true]
      exact fun hsame => hdiffers (hmatches.mp hsame)
    refine hexec.trans ?_
    rw [Instr.dt, State.echoAnswer, if_pos (by rw [received_cfg, hcheck, hfalse]; rfl)]
    rfl

end Sys2Proof.Machine
end

section
/-! PROOFS. The classification of a good frame: strip, expiry, recognition, and the answer that is written into a management frame (R25 to
R34, R179). -/

namespace Sys2Proof.Machine

open Sys2Proof.Safety

/-! ### Arrival -/

/-- A frame that finds room in the transit queue is classified (R15, R25). -/
theorem exec_of_room {i : Instr} {s : State} {f : Frame} (hands : Hands i s f) (hroom : (received i.dt s).ring.transit.length < 4) :
    exec i s = .next ((received i.dt s).classify f) := by
  rw [exec_of_hands i s f hands, State.arrive, if_pos hroom]

/-- The frame's own junction and the recognition table are those before the frame was counted. -/
@[simp] theorem received_destIsOwn (dt : Nat) (s : State) (dest : Byte) : (received dt s).destIsOwn dest = s.destIsOwn dest := by
  simp [State.destIsOwn]

@[simp] theorem received_isManagement (dt : Nat) (s : State) (f : Frame) :
    (received dt s).isManagement f = s.isManagement f := by
  simp [State.isManagement]

@[simp] theorem received_entryMatches (dt : Nat) (s : State) (f : Frame) : (received dt s).entryMatches f = s.entryMatches f := by
  funext e
  simp [State.entryMatches]

@[simp] theorem received_recognise (dt : Nat) (s : State) (f : Frame) : (received dt s).recognise f = s.recognise f := by
  simp [State.recognise]

@[simp] theorem received_snoopLines (dt : Nat) (s : State) (f : Frame) (e : Nat) :
    (received dt s).snoopLines f e = s.snoopLines f e := by
  simp [State.snoopLines]

/-! ### Strip and expiry -/

theorem classify_of_own {s : State} {f : Frame} (h : f.src = s.ownId) :
    s.classify f = { s with classifier := { s.classifier with stripped := satInc s.classifier.stripped } } :=
  if_pos h

theorem classify_of_expired {s : State} {f : Frame} (h : f.src ≠ s.ownId) (ht : 16 ≤ f.tally.toNat) :
    s.classify f = { s with classifier := { s.classifier with tallyExpired := satInc s.classifier.tallyExpired } } := by
  rw [State.classify, if_neg h, if_pos ht]

/-- Settles O18: step 1 of classification. -/
theorem ownReturnStripped : Obligations.OwnReturnStripped := by
  intro i s f hands hroom hsrc
  rw [exec_of_room hands hroom, classify_of_own (by rw [hsrc, received_ownId]), received_classifier]

/-- Settles O19: step 2 of classification. -/
theorem tallyExpired : Obligations.TallyExpired := by
  intro i s f hands hroom hsrc htally
  rw [exec_of_room hands hroom, classify_of_expired (by rwa [received_ownId]) htally, received_classifier]

/-! ### What passes strip and expiry -/

section
variable {s : State} {f : Frame} (hsrc : f.src ≠ s.ownId) (htally : f.tally.toNat < 16)
include hsrc htally

/-- A management frame that carries a verdict goes on untouched (R28). -/
theorem classify_of_answered (h : s.isManagement f = true) (hverdict : f.flags &&& 0x07 ≠ 0) :
    s.classify f = s.enqueue ⟨f, false⟩ := by
  have hopen : ¬ f.isOpen = true := fun h => hverdict (of_decide_eq_true h)
  rw [State.classify, if_neg hsrc, if_neg (by omega), if_pos h, if_neg hopen]

/-- PASS (R33). -/
theorem classify_of_pass (h : s.isManagement f = false) (ha : s.recognise f = .pass) :
    s.classify f = s.enqueue ⟨f, false⟩ := by
  rw [State.classify, if_neg hsrc, if_neg (by omega), if_neg (by rw [h]; decide), ha]

/-- SNOOP (R33, R34). -/
theorem classify_of_snoop (h : s.isManagement f = false) {e : Nat} (ha : s.recognise f = .snoop e) :
    s.classify f = (s.snoop f e).enqueue ⟨f, false⟩ := by
  rw [State.classify, if_neg hsrc, if_neg (by omega), if_neg (by rw [h]; decide), ha]

/-- BLOCK (R33). -/
theorem classify_of_block (h : s.isManagement f = false) (ha : s.recognise f = .block) :
    s.classify f = { s with classifier := { s.classifier with blocked := satInc s.classifier.blocked } } := by
  rw [State.classify, if_neg hsrc, if_neg (by omega), if_neg (by rw [h]; decide), ha]

end

/-! ### The action of the recognition table -/

/-- No valid entry matches: PASS (R33). -/
theorem recognise_of_none {s : State} {f : Frame} (h : (List.range 16).find? (s.entryMatches f) = none) :
    s.recognise f = .pass := by
  rw [State.recognise, h]

/-- The first valid entry that matches gives the action (R32, R33). -/
theorem recognise_of_entry {s : State} {f : Frame} {e : Nat} (h : (List.range 16).find? (s.entryMatches f) = some e) :
    s.recognise f =
      if cfgEntryByte s.cfg e 4 = 2 then .block else if cfgEntryByte s.cfg e 4 = 1 then .snoop e else .pass := by
  rw [State.recognise, h]

/-- The demand word within the payload, cut to the set of the entry (R34). -/
theorem snoopLines_of_word {s : State} {f : Frame} {e : Nat} {hi lo : Byte}
    (hhi : f.payload[(cfgEntryByte s.cfg e 5).toNat]? = some hi) (hlo : f.payload[(cfgEntryByte s.cfg e 5).toNat + 1]? = some lo) :
    s.snoopLines f e = halfOf hi lo &&& halfOf (cfgEntryByte s.cfg e 6) (cfgEntryByte s.cfg e 7) := by
  simp only [State.snoopLines, hhi, hlo]

/-- The demand word lies beyond the payload (R34). -/
theorem snoopLines_of_beyond {s : State} {f : Frame} {e : Nat} (h : f.payload.length ≤ (cfgEntryByte s.cfg e 5).toNat + 1) :
    s.snoopLines f e = 0 := by
  have hlo : f.payload[(cfgEntryByte s.cfg e 5).toNat + 1]? = none := List.getElem?_eq_none h
  rw [State.snoopLines, hlo]
  cases f.payload[(cfgEntryByte s.cfg e 5).toNat]? <;> rfl

/-- SNOOP of another kind of frame, or of no line, only passes it (R33, R34). -/
theorem snoop_of_idle {s : State} {f : Frame} {e : Nat} (h : f.kind ≠ 0x02 ∨ s.snoopLines f e = 0) : s.snoop f e = s := by
  refine if_neg fun hboth => ?_
  obtain ⟨hkind, hlines⟩ := (Bool.and_eq_true _ _).mp hboth
  rcases h with hk | hl
  · exact hk (of_decide_eq_true hkind)
  · rw [hl] at hlines
    exact absurd hlines (by decide)

/-- SNOOP of a DEMAND frame raises its lines (R34). -/
theorem snoop_of_lines {s : State} {f : Frame} {e : Nat} (hkind : f.kind = 0x02) (h : s.snoopLines f e ≠ 0) :
    s.snoop f e = (s.raiseLines (s.snoopLines f e)).settle :=
  if_pos (by simpa [kindDemand, hkind] using h)

/-- Settles O20: addressing and matching by the laws of the derived values; then one case for each action of the recognition table. -/
theorem otherFramesClassified : Obligations.OtherFramesClassified := by
  refine ⟨fun s f => ⟨destIsOwn_iff s f.dest, ?_, fun e => ?_⟩, fun i s f hands hroom hsrc htally => ?_⟩
  · rw [isManagement_iff, destIsOwn_iff]
  · intro flag class_ hclass
    rw [entryMatches_iff s f e hclass, ← Bool.not_eq_true, destIsOwn_iff]
  · rw [exec_of_room hands hroom]
    rw [← received_ownId i.dt] at hsrc
    have hother := received_isManagement i.dt s f
    have haction := received_recognise i.dt s f
    have hlines := received_snoopLines i.dt s f
    have hpasses (hmanage : s.isManagement f = false) (hpass : s.recognise f = .pass) :=
      classify_of_pass hsrc htally (hother.trans hmanage) (haction.trans hpass)
    have hsnoops (e : Nat) (hmanage : s.isManagement f = false) (hsnoop : s.recognise f = .snoop e) :=
      classify_of_snoop hsrc htally (hother.trans hmanage) (haction.trans hsnoop)
    refine ⟨fun hmanage hverdict => ?_, fun hmanage hnone => congrArg _ (hpasses hmanage (recognise_of_none hnone)),
      fun e hmanage hentry => ?_⟩
    · rw [classify_of_answered hsrc htally (hother.trans hmanage) hverdict]
    · have hentryAction := recognise_of_entry hentry
      refine ⟨fun hpass => congrArg _ (hpasses hmanage ?_), fun hblock => ?_, fun hsnoop hidle => ?_,
        fun hi lo hsnoop hkind hhi hlo => ⟨fun hzero => ?_, fun hsome => ?_⟩⟩
      · rw [hentryAction, hpass]
        rfl
      · rw [hblock] at hentryAction
        rw [classify_of_block hsrc htally (hother.trans hmanage) (haction.trans hentryAction), received_classifier]
      all_goals
        rw [hsnoop] at hentryAction
        rw [hsnoops e hmanage hentryAction]
      · rw [snoop_of_idle (hidle.imp_right fun hbeyond => (hlines e).trans (snoopLines_of_beyond hbeyond))]
      · rw [snoop_of_idle (Or.inr ((hlines e).trans ((snoopLines_of_word hhi hlo).trans hzero)))]
      · rw [← snoopLines_of_word hhi hlo, ← hlines e] at hsome ⊢
        rw [snoop_of_lines hkind hsome]

/-! ### The answered frame -/

/-- What a mask shows of the flags of an answered frame (R179). -/
theorem answer_masked (f : Frame) (v : Verdict) (mask : Byte) :
    (f.answer v).flags &&& mask = (f.flags &&& (0xF8 &&& mask)) ||| (v.code &&& mask) := by
  rw [Frame.answer, BitVec.and_or_distrib_right, BitVec.and_assoc]

/-- The verdict stands in bits 2 to 0 (R179). -/
theorem answer_verdict (f : Frame) (v : Verdict) : (f.answer v).flags &&& 0x07 = v.code := by
  have hcode : v.code &&& 0x07 = v.code := by cases v <;> rfl
  have hmask : (0xF8 &&& 0x07 : Byte) = 0#8 := rfl
  rw [answer_masked, hcode, hmask, BitVec.and_zero, BitVec.zero_or]

/-- Bits 7 to 3 stay as they arrived (R179). -/
theorem answer_keeps_bits (f : Frame) (v : Verdict) : (f.answer v).flags &&& 0xF8 = f.flags &&& 0xF8 := by
  have hcode : v.code &&& 0xF8 = 0#8 := by cases v <;> rfl
  have hmask : (0xF8 &&& 0xF8 : Byte) = 0xF8 := rfl
  rw [answer_masked, hcode, hmask, BitVec.or_zero]

/-- The rewrite changes the dest alone, to the own identity, where the lowest entry with this dest has the flag (R31). -/
theorem rewriteDest_eq (s : State) (f : Frame) :
    s.rewriteDest f = { f with dest :=
      if f.dest ≠ broadcast ∧ cfgIsAlias s.cfg f.dest = true ∧ cfgAliasRewrites s.cfg f.dest = true then s.ownId else f.dest } := by
  unfold State.rewriteDest
  simp only [Bool.and_eq_true, bne_iff_ne, and_assoc]
  split <;> rfl

/-- Settles O22: the flags by `answer_verdict` and `answer_keeps_bits`, the dest by `rewriteDest_eq`. -/
theorem answersWritten : Obligations.AnswersWritten := by
  intro s f v tag
  rw [answered, rewriteDest_eq]
  exact ⟨answer_verdict f v, answer_keeps_bits f v, rfl, rfl⟩

/-- A CALL from another source than the supervisor is refused (R29). -/
theorem manage_of_foreign_call (s : State) (e : Env) (payload : List Byte) (h : ¬ FromSupervisor s e) :
    s.manage (envFrame kindCall e payload) = (answered s (envFrame kindCall e payload) .refused false, s.refuseCall) := by
  have hsrc : ¬ (envFrame kindCall e payload).src = cfgSupervisorId s.cfg := h
  have hkind : (envFrame kindCall e payload).kind = kindCall := rfl
  have hpeek : kindCall ≠ kindPeek := by decide
  have hload : kindCall ≠ kindLoad := by decide
  simp only [State.manage, hkind, hpeek, hload, hsrc, if_true, if_false]
  rfl

/-- Settles O21: the CALL reaches `manage`, which refuses it. -/
theorem callRefusedForSource : Obligations.CallRefusedForSource := by
  intro i s e code args hreceiving hfits hf hreaches hforeign
  have hpayload : (code :: args).length ≤ 48 := Nat.succ_le_succ hfits
  have hexec := exec_of_reaches i s e kindCall (code :: args) hf (Or.inl rfl) hreceiving hpayload hreaches
  rw [manage_of_foreign_call _ e _ hforeign, State.refuseCall, received_classifier] at hexec
  exact hexec

end Sys2Proof.Machine
end

section
/-! PROOFS. Demand: CALL DEMAND and CALL TIME, demand events and extension events, the contacts and the held extensions (R36 to R41, R106,
R109, R122). -/

namespace Sys2Proof.Machine

open Sys2Proof.Safety

/-! ### CALL DEMAND and CALL TIME -/

/-- A CALL that reaches its block is answered by `callAnswer` (R28, R29). -/
theorem answers_of_callReaches {i : Instr} {s : State} {e : Env} {code : Byte} {args : List Byte}
    (hf : frameOf i = some (callFrame e code args)) (h : CallReaches i s e args) :
    Answers i s (callFrame e code args) ((received i.dt s).callAnswer (code :: args)).1
      ((received i.dt s).callAnswer (code :: args)).2 := by
  obtain ⟨hreceiving, hfits, hreaches, hsupervisor⟩ := h
  have hpayload : (code :: args).length ≤ 48 := Nat.succ_le_succ hfits
  have hexec := exec_of_reaches i s e kindCall (code :: args) hf (Or.inl rfl) hreceiving hpayload hreaches
  rwa [manage_of_call _ e _ hsupervisor] at hexec

/-- CALL DEMAND without its word (R41, R112). -/
theorem callAnswer_of_short_demand (s : State) {args : List Byte} (h : args.length < 2) :
    s.callAnswer (callDemandCode :: args) = (.range, s) := by
  match args, h with
  | [], _ => rfl
  | [_], _ => rfl

/-- CALL DEMAND (R41). -/
theorem callAnswer_of_demand (s : State) (hi lo : Byte) (rest : List Byte) :
    s.callAnswer (callDemandCode :: hi :: lo :: rest) = (.taken, taken (s.raiseLines (halfOf hi lo))) := rfl

/-- CALL TIME without its value (R112, R122). -/
theorem callAnswer_of_short_time (s : State) {args : List Byte} (h : args.length < 4) :
    s.callAnswer (callTime :: args) = (.range, s) := by
  match args, h with
  | [], _ => rfl
  | [_], _ => rfl
  | [_, _], _ => rfl
  | [_, _, _], _ => rfl

/-- CALL TIME (R122). -/
theorem callAnswer_of_time (s : State) (a b c d : Byte) (rest : List Byte) :
    s.callAnswer (callTime :: a :: b :: c :: d :: rest) =
      (.taken, taken { s with seq := { s.seq with clock := wordOf a b c d, clockSince := s.now } }) := rfl

/-- Settles O38: neither command asks for the mode, the control source or the transfer. -/
theorem demandAndTimeTaken : Obligations.DemandAndTimeTaken := by
  intro dt e args s
  refine ⟨fun hreaches => ?_, fun hreaches => ?_⟩
  · have hanswers := answers_of_callReaches (i := .callDemand dt e args) (code := callDemandCode) rfl hreaches
    refine ⟨fun hshort => ?_, ?_⟩
    · rwa [callAnswer_of_short_demand _ hshort] at hanswers
    · rintro hi lo rest rfl
      rwa [callAnswer_of_demand] at hanswers
  · have hanswers := answers_of_callReaches (i := .time dt e args) (code := callTime) rfl hreaches
    refine ⟨fun hshort => ?_, ?_⟩
    · rwa [callAnswer_of_short_time _ hshort] at hanswers
    · rintro a b c d rest rfl
      rw [callAnswer_of_time] at hanswers
      rwa [← received_seq dt s, ← received_now dt s]

/-! ### Extension events -/

/-- The deadline that an extension event sets in a step that began at t0: now plus the extension unit, at most t0 plus max (R106). -/
def State.extendedTo (s : State) (t0 : Nat) : Nat :=
  min (s.stamp + cfgStepExtension s.cfg s.seq.currentPlan s.seq.pointer) (t0 + cfgStepMax s.cfg s.seq.currentPlan s.seq.pointer)

/-- An extension event in MIN or EXTEND of a plan step (R106). -/
theorem extensionEvent_of_planStep {s : State} {t t0 : Nat} (hrunning : s.runningStage = some t) (hforce : s.seq.force = .none)
    (hstart : s.seq.stepStart = some t0) :
    s.extensionEvent = { s with seq := { s.seq with deadline := some (s.extendedTo t0) } } := by
  simp only [State.extensionEvent, hrunning, hforce, hstart]
  rfl

/-- Any other extension event is discarded (R106). -/
theorem extensionEvent_of_discarded {s : State} (h : s.runningStage = none ∨ s.seq.force ≠ .none ∨ s.seq.stepStart = none) :
    s.extensionEvent = s := by
  unfold State.extensionEvent
  split
  next hrunning hforce hstart =>
    rw [hrunning, hforce, hstart] at h
    simp at h
  next => rfl

/-- The extension deadline after an extension event (R106). -/
def State.extendedDeadline (s : State) : Option Nat :=
  if s.seq.force = .none ∧ s.runningStage ≠ none then (s.seq.stepStart.map s.extendedTo).or s.seq.deadline else s.seq.deadline

/-- An extension event changes the deadline alone (R106). -/
theorem extensionEvent_eq (s : State) :
    s.extensionEvent = { s with seq := { s.seq with deadline := s.extendedDeadline } } := by
  unfold State.extendedDeadline
  by_cases hplan : s.seq.force = .none ∧ s.runningStage ≠ none
  · obtain ⟨t, hrunning⟩ := Option.ne_none_iff_exists'.mp hplan.2
    rw [if_pos hplan]
    cases hstart : s.seq.stepStart with
    | none =>
      rw [extensionEvent_of_discarded (Or.inr (Or.inr hstart))]
      rfl
    | some t0 =>
      rw [extensionEvent_of_planStep hrunning hplan.1 hstart]
      rfl
  · have hdiscarded : s.runningStage = none ∨ s.seq.force ≠ .none :=
      (Decidable.not_and_iff_or_not.mp hplan).symm.imp_left Decidable.not_not.mp
    rw [if_neg hplan, extensionEvent_of_discarded (hdiscarded.imp_right Or.inl)]

/-! ### Demand events -/

/-- A step end is taken in a rest that nothing keeps from ending (R109). -/
theorem restOpen_iff (s : State) : s.restOpen = true ↔ Resting s ∧ s.seq.transfer = .none := by
  simp [State.restOpen, State.restsUnforced, Resting, and_assoc]

/-- The register after a demand event on an enabled line (R39). -/
def State.joined (s : State) (d : LineId) : Half := s.demand.register ||| stagesBut (cfgLineStages s.cfg d) s.runningStage

/-- The line extends, and its set holds the running stage (R39). -/
def State.lineExtends (s : State) (d : LineId) : Bool :=
  cfgLineExtends s.cfg d && s.runningStage.any (fun t => setHas (cfgLineStages s.cfg d) t)

/-- The extension deadline after a demand event on an enabled line (R39, R106). -/
def State.demandDeadline (s : State) (d : LineId) : Option Nat :=
  if s.lineExtends d then s.extendedDeadline else s.seq.deadline

/-- The state after a demand event on an enabled line, before the scan that may follow (R39). -/
def State.demandActed (s : State) (d : LineId) : State :=
  { s with demand := { s.demand with register := s.joined d }, seq := { s.seq with deadline := s.demandDeadline d } }

/-- A line that does not extend a running stage leaves the deadline (R39). -/
theorem demandDeadline_of_no_running {s : State} (d : LineId) (h : s.runningStage = none) :
    s.demandDeadline d = s.seq.deadline := by
  simp [State.demandDeadline, State.lineExtends, h]

/-- The deadline of a plan step, of a forced one and of none, while a stage is running (R39, R106). -/
theorem demandDeadline_of_running {s : State} (d : LineId) {t : Nat} (h : s.runningStage = some t) :
    s.demandDeadline d =
      if s.seq.force = .none ∧ cfgLineExtends s.cfg d = true ∧ setHas (cfgLineStages s.cfg d) t = true then
        (s.seq.stepStart.map s.extendedTo).or s.seq.deadline
      else s.seq.deadline := by
  simp only [State.demandDeadline, State.lineExtends, State.extendedDeadline, h, Option.any_some, Bool.and_eq_true]
  by_cases hextends : cfgLineExtends s.cfg d = true ∧ setHas (cfgLineStages s.cfg d) t = true <;> simp [hextends]

/-- A line that is not enabled demands nothing (R38). -/
theorem demandEvent_of_disabled {s : State} {d : LineId} (h : cfgLineEnabled s.cfg d = false) : s.demandEvent d = s :=
  if_neg (by rw [h]; decide)

/-- A demand event on an enabled line: register and deadline, then the scan when a stage has joined (R39, R109). -/
theorem demandEvent_of_enabled {s : State} {d : LineId} (h : cfgLineEnabled s.cfg d = true) :
    s.demandEvent d = if s.joined d = s.demand.register then s.demandActed d else (s.demandActed d).restScan := by
  have hextension : (if s.lineExtends d then State.extensionEvent { s with demand := { s.demand with register := s.joined d } }
      else { s with demand := { s.demand with register := s.joined d } }) = s.demandActed d := by
    rw [extensionEvent_eq, State.demandActed, State.demandDeadline]
    split <;> rfl
  rw [State.demandEvent, if_pos h, ← hextension]
  rfl

/-- No scan follows: no stage has joined, or no rest that may end (R109). -/
theorem demandEvent_of_no_scan {s : State} {d : LineId} (h : cfgLineEnabled s.cfg d = true)
    (hrest : ¬ (Resting s ∧ s.seq.transfer = .none) ∨ s.joined d = s.demand.register) : s.demandEvent d = s.demandActed d := by
  rw [demandEvent_of_enabled h]
  rcases hrest with hclosed | hsame
  · have hopen : ¬ (s.demandActed d).restOpen = true := fun hopen => hclosed ((restOpen_iff s).mp hopen)
    rw [State.restScan, if_neg hopen, ite_self]
  · rw [if_pos hsame]

/-- A stage joins in a rest: the scan is made as a step end (R108, R109). -/
theorem demandEvent_of_scan {s : State} {d : LineId} (h : cfgLineEnabled s.cfg d = true) (hrest : Resting s)
    (htransfer : s.seq.transfer = .none) (hjoined : s.joined d ≠ s.demand.register) :
    s.demandEvent d =
      if s.seq.isolatedSwitch = true then (s.demandActed d).planSwitch else (s.demandActed d).scanPlan := by
  have hopen : (s.demandActed d).restOpen = true := (restOpen_iff s).mpr ⟨hrest, htransfer⟩
  have hnone : (s.demandActed d).seq.transfer = .none := htransfer
  rw [demandEvent_of_enabled h, if_neg hjoined, State.restScan, if_pos hopen, State.stepEnd, hnone]
  rfl

/-- Settles O39: the running stage by its laws, the deadline by cases of it, the scan by `demandEvent_of_scan`. -/
theorem demandEventsAct : Obligations.DemandEventsAct := by
  intro s d set running joined deadline acted
  have hjoined : joined = s.joined d := by
    simp only [joined, State.joined, running]
    cases s.runningStage <;> rfl
  have hdeadline : deadline = s.demandDeadline d := by
    simp only [deadline, running]
    cases hrunning : s.runningStage with
    | none => rw [demandDeadline_of_no_running d hrunning]
    | some t =>
      rw [demandDeadline_of_running d hrunning]
      cases s.seq.stepStart with
      | none => exact (ite_self _).symm
      | some t0 => rfl
  have hacted : acted = s.demandActed d := by
    simp only [acted, hjoined, hdeadline]
    rfl
  rw [hacted, hjoined]
  exact ⟨runningStage_of_running, runningStage_of_not, demandEvent_of_disabled, demandEvent_of_no_scan,
    fun h hrest htransfer hjoins => demandEvent_of_scan h hrest htransfer hjoins⟩

/-! ### Held extensions -/

/-- The held-extension condition asks for a running stage (R39, R40). -/
theorem runningStage_of_heldCondition {s : State} {k : ContactId} (h : s.heldCondition k = true) : s.runningStage ≠ none := by
  obtain ⟨-, -, -, hmode, hstep, stage, hstage, -⟩ := (heldCondition_iff s k).mp h
  rw [runningStage_of_running hmode (Or.inr hstep), hstage]
  exact Option.some_ne_none stage

/-- While the condition holds a stage is running, so the force state and the step start alone decide (R40, R106). -/
theorem extendedDeadline_of_heldCondition {s : State} {k : ContactId} (h : s.heldCondition k = true) :
    s.extendedDeadline =
      if s.seq.force = .none then (s.seq.stepStart.map s.extendedTo).or s.seq.deadline else s.seq.deadline := by
  simp only [State.extendedDeadline, runningStage_of_heldCondition h, ne_eq, not_false_eq_true, and_true]

/-- One event of the series, the next due at an instant (R40). -/
theorem extensionEvent_setHeld (s : State) (k : ContactId) (next : Nat) :
    (s.setHeld k (some next)).extensionEvent = { s with
      demand := { s.demand with held := s.demand.held.set k.val (some next) }
      seq := { s.seq with deadline := s.extendedDeadline } } := by
  rw [extensionEvent_eq]
  rfl

/-- The first event of a series is sent at once (R40, log 20). -/
theorem exec_heldExtension_of_first {dt : Nat} {k : ContactId} {s : State} (hphase : s.phase = .notInReset)
    (h : s.heldCondition k = true) (hheld : s.demand.held[k] = none) :
    exec (.heldExtension dt k) s = .next ((elapse dt s).setHeld k (some (s.now + dt + 1000000))).extensionEvent := by
  have hcondition : (elapse dt s).heldCondition k = true := h
  have hnone : (elapse dt s).demand.held[k] = none := hheld
  simp only [exec, execHeldExtension, live_next _ _ _ hphase, hcondition, if_true, hnone]
  rfl

/-- A later event is sent when it is due, and the next is due a second after it was (R40, log 37). -/
theorem exec_heldExtension_of_due {dt t : Nat} {k : ContactId} {s : State} (hphase : s.phase = .notInReset)
    (h : s.heldCondition k = true) (hheld : s.demand.held[k] = some t) (hdue : t ≤ s.now + dt) :
    exec (.heldExtension dt k) s = .next ((elapse dt s).setHeld k (some (t + 1000000))).extensionEvent := by
  have hcondition : (elapse dt s).heldCondition k = true := h
  have hsome : (elapse dt s).demand.held[k] = some t := hheld
  simp only [exec, execHeldExtension, live_next _ _ _ hphase, hcondition, if_true, hsome, elapse_now, hdue]
  rfl

/-- Before it is due no event is sent (R40). -/
theorem exec_heldExtension_of_early {dt t : Nat} {k : ContactId} {s : State} (hphase : s.phase = .notInReset)
    (h : s.heldCondition k = true) (hheld : s.demand.held[k] = some t) (hearly : s.now + dt < t) :
    exec (.heldExtension dt k) s = .next (elapse dt s) := by
  have hcondition : (elapse dt s).heldCondition k = true := h
  have hsome : (elapse dt s).demand.held[k] = some t := hheld
  simp only [exec, execHeldExtension, live_next _ _ _ hphase, hcondition, if_true, hsome, elapse_now, Nat.not_le.mpr hearly, if_false]

/-- While the condition does not hold nothing is sent or timed (R40). -/
theorem exec_heldExtension_of_ended {dt : Nat} {k : ContactId} {s : State} (hphase : s.phase = .notInReset)
    (h : s.heldCondition k = false) : exec (.heldExtension dt k) s = .next ((elapse dt s).setHeld k none) := by
  have hcondition : ¬ (elapse dt s).heldCondition k = true := by
    rw [Bool.not_eq_true]
    exact h
  rw [exec, execHeldExtension, live_next _ _ _ hphase, if_neg hcondition]

/-! ### Contacts -/

/-- The third consecutive differing sample is accepted (R37). -/
theorem contact_accepted {c : Contact} {closed : Bool} (h : closed ≠ c.closed) (hc : 2 ≤ c.changes) :
    (c.sample closed).closed = closed := by
  rw [Contact.sample, if_neg h, if_neg (by omega)]

/-- Before that the contact keeps its state (R37). -/
theorem contact_kept {c : Contact} {closed : Bool} (h : c.changes < 2 ∨ closed = c.closed) :
    (c.sample closed).closed = c.closed := by
  unfold Contact.sample
  split
  · rfl
  next hdiffers => rw [if_pos (h.resolve_right hdiffers)]

/-- The debounce record of a contact has taken a sample (R37). -/
def State.sampled (s : State) (k : ContactId) (closed : Bool) : State :=
  { s with demand := { s.demand with contacts := s.demand.contacts.set k.val (s.demand.contacts[k].sample closed) } }

/-- An accepted closure is one demand event (R36, R37). -/
theorem sampleContact_of_closure {s : State} {k : ContactId} (h : s.demand.contacts[k].closed = false)
    (hc : 2 ≤ s.demand.contacts[k].changes) : s.sampleContact k true = (s.sampled k true).demandEvent (contactLine k) := by
  have haccepted : (s.demand.contacts[k].sample true).closed = true := contact_accepted (by rw [h]; decide) hc
  rw [State.sampleContact, haccepted, h]
  rfl

/-- An accepted opening ends the held extension (R37, R40). -/
theorem sampleContact_of_opening {s : State} {k : ContactId} (h : s.demand.contacts[k].closed = true)
    (hc : 2 ≤ s.demand.contacts[k].changes) : s.sampleContact k false = (s.sampled k false).setHeld k none := by
  have haccepted : (s.demand.contacts[k].sample false).closed = false := contact_accepted (by rw [h]; decide) hc
  rw [State.sampleContact, haccepted, h]
  rfl

/-- A sample that accepts no change moves the debounce record alone (R37). -/
theorem sampleContact_of_kept {s : State} {k : ContactId} {closed : Bool}
    (h : s.demand.contacts[k].changes < 2 ∨ closed = s.demand.contacts[k].closed) : s.sampleContact k closed = s.sampled k closed := by
  rw [State.sampleContact, contact_kept h, Bool.and_not_self]
  rfl

/-- A sample moves the contacts by its own record and leaves the next instant (R37). -/
theorem sampleContact_demand (s : State) (k : ContactId) (closed : Bool) :
    (s.sampleContact k closed).demand.contacts = s.demand.contacts.set k.val (s.demand.contacts[k].sample closed) ∧
      (s.sampleContact k closed).demand.nextSample = s.demand.nextSample := by
  unfold State.sampleContact
  dsimp only
  split
  · rw [(demandEvent_settled _ _).demand]
    exact ⟨rfl, rfl⟩
  · split <;> exact ⟨rfl, rfl⟩

/-- Contacts sampled one after the other, each once: every one of them moves by its own sample (R37). -/
theorem foldl_sampleContact (levels : Byte) (l : List ContactId) (hl : l.Nodup) (s : State) :
    let t := l.foldl (fun (u : State) (k : ContactId) => u.sampleContact k (levels.getLsbD k.val)) s
    t.demand.nextSample = s.demand.nextSample ∧
      ∀ k : ContactId, t.demand.contacts[k] =
        if k ∈ l then s.demand.contacts[k].sample (levels.getLsbD k.val) else s.demand.contacts[k] := by
  induction l generalizing s with
  | nil => simp
  | cons j l ih =>
    obtain ⟨hj, hrest⟩ := List.nodup_cons.mp hl
    obtain ⟨hcontacts, hnext⟩ := sampleContact_demand s j (levels.getLsbD j.val)
    obtain ⟨ihnext, ihcontacts⟩ := ih hrest (s.sampleContact j (levels.getLsbD j.val))
    refine ⟨ihnext.trans hnext, fun k => (ihcontacts k).trans ?_⟩
    rw [hcontacts]
    by_cases hk : k = j
    · subst hk
      simp [hj]
    · have hval : j.val ≠ k.val := fun h => hk (Fin.ext h.symm)
      simp [hk, hval]

/-- Each contact is listed once. -/
theorem contactIds_nodup : contactIds.Nodup := by decide

/-- Every contact is listed. -/
@[simp] theorem mem_contactIds (k : ContactId) : k ∈ contactIds := by revert k; decide

/-- The state after a sample of the eight contacts, before what follows at the same instant (R37). -/
def State.sampledAll (s : State) (levels : Byte) : State :=
  contactIds.foldl (fun (u : State) (k : ContactId) => u.sampleContact k (levels.getLsbD k.val))
    { s with demand := { s.demand with nextSample := s.demand.nextSample + 10000 } }

/-- Before it is due a sample takes no contact (R37). -/
theorem exec_contactSample_of_early {dt : Nat} {levels : Byte} {s : State} (hphase : s.phase = .notInReset)
    (h : s.now + dt < s.demand.nextSample) : exec (.contactSample dt levels) s = .next (elapse dt s) := by
  have hearly : ¬ (elapse dt s).demand.nextSample ≤ (elapse dt s).now := Nat.not_le.mpr h
  simp only [exec, execContactSample, live_next _ _ _ hphase, hearly, if_false]

/-- A sample that is due takes the eight contacts (R37). -/
theorem exec_contactSample_of_due {dt : Nat} {levels : Byte} {s : State} (hphase : s.phase = .notInReset)
    (h : s.demand.nextSample ≤ s.now + dt) :
    exec (.contactSample dt levels) s = .next ((elapse dt s).sampledAll levels).settle := by
  have hdue : (elapse dt s).demand.nextSample ≤ (elapse dt s).now := h
  simp only [exec, execContactSample, live_next _ _ _ hphase, hdue, if_true]
  rfl

/-- The records of the contacts and the instant of the next sample after a sample of all eight (R37). -/
theorem sampledAll_demand (s : State) (levels : Byte) :
    (s.sampledAll levels).settle.demand.nextSample = s.demand.nextSample + 10000 ∧
      ∀ k : ContactId, (s.sampledAll levels).settle.demand.contacts[k] = s.demand.contacts[k].sample (levels.getLsbD k.val) := by
  obtain ⟨hnext, hcontacts⟩ := foldl_sampleContact levels contactIds contactIds_nodup
    { s with demand := { s.demand with nextSample := s.demand.nextSample + 10000 } }
  rw [(settle_settled _).demand]
  exact ⟨hnext, fun k => (hcontacts k).trans (if_pos (mem_contactIds k))⟩

/-- Settles O40: the condition by its law; the sample by `foldl_sampleContact`; one contact by the debounce; the held extension by its
four cases. -/
theorem contactsAndHeldExtensions : Obligations.ContactsAndHeldExtensions := by
  refine ⟨heldCondition_iff, fun dt levels s hphase => ⟨exec_contactSample_of_early hphase, fun hdue => ?_⟩,
    fun s k closed => ⟨Nat.add_comm k.val 8, ?_, ?_, sampleContact_of_kept⟩, fun dt k s hphase => ?_⟩
  · obtain ⟨hnext, hcontacts⟩ := sampledAll_demand (elapse dt s) levels
    exact ⟨_, rfl, exec_contactSample_of_due hphase hdue, hnext, hcontacts⟩
  · rintro rfl
    exact sampleContact_of_closure
  · rintro rfl
    exact sampleContact_of_opening
  · intro r extended
    have hextended (hcondition : s.heldCondition k = true) (next : Nat) :
        (r.setHeld k (some next)).extensionEvent = extended next := by
      have hcases : r.extendedDeadline =
          if s.seq.force = .none then (s.seq.stepStart.map r.extendedTo).or s.seq.deadline else s.seq.deadline :=
        extendedDeadline_of_heldCondition hcondition
      have hdeadline : r.extendedDeadline = (extended next).seq.deadline := by
        rw [hcases]
        simp only [extended]
        cases s.seq.stepStart with
        | none => exact ite_self _
        | some t0 => rfl
      rw [extensionEvent_setHeld, hdeadline]
      rfl
    refine ⟨fun hcondition hheld => ?_, fun t hcondition hheld hdue => ?_, fun t => exec_heldExtension_of_early hphase,
      exec_heldExtension_of_ended hphase⟩
    · rw [exec_heldExtension_of_first hphase hcondition hheld, hextended hcondition]
    · rw [exec_heldExtension_of_due hphase hcondition hheld hdue, hextended hcondition]

end Sys2Proof.Machine
end

section
/-! PROOFS. No command brings two conflicting groups into right of way together (R84): a group enters right of way by `tryGreen` alone,
which asks that no conflicting group is in it, and the swap, which changes the conflict matrix, leaves no group in it. -/

namespace Sys2Proof.Machine

-- One declaration at a time, as in the tests: declarations that wait for one another each hold a thread with its stack.
set_option Elab.async false

open Sys2Proof.Safety

/-! ### What an operation keeps -/

/-- Two conflicting groups are in right of way together after an operation only if two were before it. -/
def GreensKept (s t : State) : Prop := NoConflictingGreens s → NoConflictingGreens t

theorem GreensKept.refl (s : State) : GreensKept s s := id

theorem GreensKept.trans {s t u : State} (h : GreensKept s t) (k : GreensKept t u) : GreensKept s u := fun hs => k (h hs)

/-- An operation that brings no group into right of way, under the same conflict matrix. -/
theorem GreensKept.of_aspects {s t : State} (active : t.mgmt.active = s.mgmt.active)
    (h : ∀ g : GroupId, t.groups[g].aspect.rightOfWay = true → s.groups[g].aspect.rightOfWay = true) : GreensKept s t := by
  intro hs i j hconflict ⟨hi, hj⟩
  refine hs i j ?_ ⟨h i hi, h j hj⟩
  rwa [State.conflicts, State.cfg, active] at hconflict

/-- An operation that leaves the groups and the active configuration alone. -/
theorem GreensKept.of_same {s t : State} (groups : t.groups = s.groups := by rfl)
    (active : t.mgmt.active = s.mgmt.active := by rfl) : GreensKept s t :=
  .of_aspects active (fun g => by rw [groups]; exact id)

/-- An operation that is carried out or not. -/
theorem GreensKept.ite {s t u : State} {p : Prop} [Decidable p] (h : p → GreensKept s t) (k : GreensKept s u) :
    GreensKept s (if p then t else u) := by
  split
  · exact h ‹_›
  · exact k

theorem foldl_greens {α : Type} (f : State → α → State) (h : ∀ s a, GreensKept s (f s a)) (l : List α) (s : State) :
    GreensKept s (l.foldl f s) :=
  foldl_keeps (GreensKept s) f (fun t a ht => ht.trans (h t a)) l s (.refl s)

/-- No group is in right of way. -/
def NoGreens (s : State) : Prop := ∀ g : GroupId, s.groups[g].aspect.rightOfWay = false

theorem NoGreens.greens {s t : State} (h : NoGreens t) : GreensKept s t := by
  rintro - i j - ⟨hi, -⟩
  rw [h i] at hi
  cases hi

/-! ### Group records -/

/-- A group that the operation brings into right of way was in it. -/
theorem setGroup_greens (s : State) (g : GroupId) (x : Group)
    (h : x.aspect.rightOfWay = true → s.groups[g].aspect.rightOfWay = true) : GreensKept s (s.setGroup g x) := by
  refine .of_aspects rfl (fun i hi => ?_)
  rw [getElem_setGroup] at hi
  split at hi
  next heq => exact heq ▸ h hi
  next => exact hi

/-- Conflict is mutual. -/
theorem conflicts_comm (s : State) (i j : GroupId) : s.conflicts i j = s.conflicts j i := by
  simp only [State.conflicts, cfgConflicts, Bool.or_comm, ne_comm]

theorem conflictInRightOfWay_eq_false (s : State) (g : GroupId) :
    s.conflictInRightOfWay g = false ↔ ∀ i : GroupId, s.conflicts i g = true → s.groups[i].aspect.rightOfWay = false := by
  simp [State.conflictInRightOfWay]

/-- A group may enter right of way where no conflicting group is in it (R84). -/
theorem setGroup_greens_of_clear (s : State) (g : GroupId) (x : Group) (h : s.conflictInRightOfWay g = false) :
    GreensKept s (s.setGroup g x) := by
  rw [conflictInRightOfWay_eq_false] at h
  have hself : s.conflicts g g = false := by simp [State.conflicts, cfgConflicts]
  have hother (j : GroupId) (hconflict : s.conflicts j g = true) : (s.setGroup g x).groups[j].aspect.rightOfWay = false := by
    rw [getElem_setGroup, if_neg (fun heq => by rw [← heq, hself] at hconflict; cases hconflict)]
    exact h j hconflict
  intro hs i j hconflict ⟨hi, hj⟩
  have hbefore : s.conflicts i j = true := hconflict
  by_cases hig : g = i
  · rw [hother j (by rw [conflicts_comm, hig]; exact hbefore)] at hj
    cases hj
  · by_cases hjg : g = j
    · rw [hother i (by rw [hjg]; exact hbefore)] at hi
      cases hi
    · rw [getElem_setGroup, if_neg hig] at hi
      rw [getElem_setGroup, if_neg hjg] at hj
      exact hs i j hbefore ⟨hi, hj⟩

theorem Group.terminate_rightOfWay (x : Group) (n : Nat) (a c : Timer) (h : (x.terminate n a c).aspect.rightOfWay = true) :
    x.aspect.rightOfWay = true := by
  unfold Group.terminate at h
  split at h <;> simp_all [Group.plain, Aspect.rightOfWay]

theorem Group.returnRed_rightOfWay (x : Group) (h : x.returnRed.aspect.rightOfWay = true) : x.aspect.rightOfWay = true := by
  unfold Group.returnRed at h
  split at h <;> simp_all [Group.plain, Aspect.rightOfWay]

theorem Group.show_rightOfWay (x : Group) (n : Nat) {v p : Aspect} (hv : v.rightOfWay = false) (hp : p.rightOfWay = false)
    (h : (x.show n v p).aspect.rightOfWay = true) : x.kind = .unused ∧ x.aspect.rightOfWay = true := by
  unfold Group.show at h
  split at h
  next hkind => exact ⟨hkind, h⟩
  next => exact absurd h (by rw [hv]; decide)
  next => exact absurd h (by rw [hp]; decide)

theorem terminate_greens (s : State) (g : GroupId) : GreensKept s (s.terminate g) :=
  setGroup_greens s g _ (Group.terminate_rightOfWay _ _ _ _)

theorem returnRed_greens (s : State) (g : GroupId) : GreensKept s (s.returnRed g) :=
  setGroup_greens s g _ (Group.returnRed_rightOfWay _)

theorem showAll_greens (s : State) {v p : Aspect} (hv : v.rightOfWay = false := by rfl) (hp : p.rightOfWay = false := by rfl) :
    GreensKept s (s.showAll v p) :=
  .of_aspects rfl (fun g hg => by
    rw [showAll_getElem] at hg
    exact (Group.show_rightOfWay _ _ hv hp hg).2)

theorem gain_greens (s : State) (g : GroupId) : GreensKept s (s.gain g) := by
  unfold State.gain
  split
  iterate 4 exact .refl s
  iterate 4 exact setGroup_greens s g _ id

/-- The group is RED. -/
theorem withhold_greens (s : State) (g : GroupId) : GreensKept s (s.withhold g) := setGroup_greens s g _ nofun

/-- The one entry into right of way (R84). -/
theorem tryGreen_greens (s : State) (g : GroupId) : GreensKept s (s.tryGreen g) := by
  unfold State.tryGreen
  split
  · exact .refl s
  · split
    · exact .refl s
    next hclear =>
      exact .ite (fun _ => setGroup_greens_of_clear s g _ (Bool.not_eq_true _ ▸ hclear)) (withhold_greens s g)

theorem tryRedAmber_greens (s : State) (g : GroupId) : GreensKept s (s.tryRedAmber g) :=
  .ite (fun _ => setGroup_greens s g _ nofun) (withhold_greens s g)

theorem release_greens (s : State) (g : GroupId) : GreensKept s (s.release g) := by
  unfold State.release
  dsimp only
  split
  · exact setGroup_greens s g _ nofun
  · exact .trans
      (setGroup_greens s g { s.groups[g] with gain := some (s.earliestGreen g), withheld := false, withheldSince := none } id)
      (tryGreen_greens _ g)
  · exact .refl s

theorem recheck_greens (s : State) (g : GroupId) : GreensKept s (s.recheck g) := .ite (fun _ => release_greens s g) (.refl s)

theorem recheckAround_greens (s : State) (i : GroupId) : GreensKept s (s.recheckAround i) :=
  foldl_greens _ (fun t g => .ite (fun _ => recheck_greens t g) (.refl t)) _ s

theorem retryAround_greens (s : State) (i : GroupId) : GreensKept s (s.retryAround i) :=
  foldl_greens _ (fun t g => .ite (fun _ => tryGreen_greens t g) (.refl t)) _ s

theorem endTermination_greens (s : State) (g : GroupId) : GreensKept s (s.endTermination g) := setGroup_greens s g _ nofun

theorem clearToRed_greens (s : State) : GreensKept s s.clearToRed := by
  refine foldl_greens _ (fun t g => ?_) _ s
  dsimp only
  split
  · exact terminate_greens t g
  · exact terminate_greens t g
  · exact .ite (fun _ => terminate_greens t g) (.refl t)
  · exact returnRed_greens t g
  · exact .ite (fun _ => returnRed_greens t g) (.refl t)
  · exact .refl t
  · exact .refl t

theorem changeRequests_greens (s : State) (n : Nat) : GreensKept s (s.changeRequests n) := by
  unfold State.changeRequests
  dsimp only
  refine .trans (foldl_greens _ (fun t g => ?_) _ s) (.trans (foldl_greens _ (fun t g => ?_) _ _) (foldl_greens _ (fun t g => ?_) _ _))
  · exact .ite (fun _ => terminate_greens t g) (.refl t)
  · exact .ite (fun _ => returnRed_greens t g) (.refl t)
  · exact .ite (fun _ => gain_greens t g) (.refl t)

/-! ### Modes, evidence and red status -/

theorem shift_greens (s : State) (m : JunctionMode) (f : Fallback) : GreensKept s (s.shift m f) :=
  .of_same (shift_groups s m f) (by rw [(shift_control s m f).mgmt])

theorem leaveNormal_greens (s : State) : GreensKept s s.leaveNormal := .ite (fun _ => .of_same) (.refl s)

theorem toFlash_greens (s : State) (f : Fallback) : GreensKept s (s.toFlash f) :=
  ((leaveNormal_greens s).trans (shift_greens _ _ _)).trans (showAll_greens _)

theorem toDark_greens (s : State) (f : Fallback) : GreensKept s (s.toDark f) :=
  ((leaveNormal_greens s).trans (shift_greens _ _ _)).trans (showAll_greens _)

theorem controlled_greens (s : State) (c : Cause) (n : Byte) : GreensKept s (s.controlled c n) :=
  .ite (fun _ => ((leaveNormal_greens s).trans (shift_greens _ _ _)).trans (clearToRed_greens _))
    (.ite (fun _ => .refl s) (shift_greens s _ _))

theorem redLossAtStart_greens (s : State) : GreensKept s s.redLossAtStart :=
  .ite (fun _ => foldl_greens _ (fun t _ => .ite (fun _ => controlled_greens t _ _) (.refl t)) _ s) (.refl s)

/-- START is entered by SHOW_RED; what follows brings no group into right of way. -/
theorem enterStart_greens_of_showRed {s u : State} {f : Fallback}
    (h : GreensKept u (s.endNormal.shift .start { f with failRed := .none }).showRed) : GreensKept u (s.enterStart f) := by
  unfold State.enterStart
  generalize (s.endNormal.shift .start { f with failRed := .none }).showRed = t at h ⊢
  refine h.trans (.trans ?_ (redLossAtStart_greens _))
  exact .of_same

theorem enterStart_greens (s : State) (f : Fallback) : GreensKept s (s.enterStart f) :=
  enterStart_greens_of_showRed ((GreensKept.trans (t := s.endNormal) .of_same (shift_greens _ _ _)).trans (showAll_greens _))

theorem alarmEvents_greens (s : State) (n : Byte) (l : List AlarmEvent) : GreensKept s (s.alarmEvents n l) :=
  foldl_greens _ (fun _ _ => .ite (fun _ => .of_same) .of_same) l s

theorem conflictDetected_greens (s : State) (l : List Byte) : GreensKept s (s.conflictDetected l) := by
  unfold State.conflictDetected
  split
  · exact .refl s
  next p rest =>
    dsimp only
    refine .trans (t := (p :: rest).foldl (fun t q => t.raise .conflict q)
      { s with fallback := { s.fallback with latch := true } }) ?_ ?_
    · exact GreensKept.trans (t := { s with fallback := { s.fallback with latch := true } }) .of_same
        (foldl_greens _ (fun _ _ => .of_same) _ _)
    · split
      · exact shift_greens _ _ _
      · exact .ite (fun _ => toDark_greens _ _) (shift_greens _ _ _)
      all_goals exact .ite (fun _ => toDark_greens _ _) (toFlash_greens _ _)

theorem setEvidence_greens (s : State) (g : GroupId) (v : Bool) : GreensKept s (s.setEvidence g v) := by
  unfold State.setEvidence
  dsimp only
  refine .trans (t := (s.setGroup g { s.groups[g] with evidence := v }).dropEndedPairs.recheckAround g) ?_
    (.ite (fun _ => conflictDetected_greens _ _) (.refl _))
  exact .trans (.trans (setGroup_greens s g { s.groups[g] with evidence := v } id) .of_same) (recheckAround_greens _ g)

theorem refreshEvidence_greens (s : State) : GreensKept s s.refreshEvidence :=
  .trans (foldl_greens _ (fun t g => .ite (fun _ => setEvidence_greens t g _) (.refl t)) _ s)
    (foldl_greens _ (fun t g => .ite (fun _ => setEvidence_greens t g _) (.refl t)) _ _)

theorem setRedStatus_greens (s : State) (g : GroupId) (v : RedStatus) : GreensKept s (s.setRedStatus g v) := by
  have hset : GreensKept s ((s.setGroup g { s.groups[g] with redStatus := v }).recheckAround g) :=
    (setGroup_greens s g { s.groups[g] with redStatus := v } id).trans (recheckAround_greens _ g)
  unfold State.setRedStatus
  dsimp only
  generalize (s.setGroup g { s.groups[g] with redStatus := v }).recheckAround g = t at hset ⊢
  have hlost : GreensKept s (if cfgRedLossFlash s.cfg then
      (t.raise .redLost (BitVec.ofNat 8 g.val)).controlled .redLoss (BitVec.ofNat 8 g.val)
      else t.raise .redLost (BitVec.ofNat 8 g.val)) := by
    refine hset.trans (.trans (t := t.raise .redLost (BitVec.ofNat 8 g.val)) .of_same ?_)
    exact .ite (fun _ => controlled_greens _ _ _) (.refl _)
  split
  · exact hset
  · exact hset.trans .of_same
  · exact hset.trans .of_same
  · exact hlost
  · exact hlost
  all_goals exact hset

theorem refreshRed_greens (s : State) : GreensKept s s.refreshRed :=
  foldl_greens _ (fun t g => .ite (fun _ => .refl t) (setRedStatus_greens t g _)) _ s

end Sys2Proof.Machine
end

section
/-! PROOFS. The lamp side, stages and the swap bring no conflicting greens together (R84). -/

namespace Sys2Proof.Machine

-- One declaration at a time, as in the tests: declarations that wait for one another each hold a thread with its stack.
set_option Elab.async false

open Sys2Proof.Safety

/-! ### The lamp side -/

/-- What the alarms of a core, the Proving Unit, the evidence and a cancelled test keep, a core's change of record keeps. -/
theorem moveCore_keeps (P : State → Prop) {s : State} {n : CircuitId} {r : CoreRecord} (hset : P (s.setCore n r))
    (hcancel : ∀ t, P t → P { t with scanner := t.scanner.cancelLeak n })
    (halarms : ∀ t l, P t → P (t.alarmEvents (BitVec.ofNat 8 n.val) l)) (hbroken : ∀ t, P t → P (t.coreBroken n))
    (hmended : ∀ t, P t → P (t.coreMended n)) (hevidence : ∀ t, P t → P t.refreshEvidence) : P (s.moveCore n r) := by
  unfold State.moveCore
  dsimp only
  generalize s.cable.cores[n].state = old
  generalize s.setCore n r = t at hset ⊢
  have hproved (u : State) (hu : P u) :
      P (if r.state.breaks then u.coreBroken n else if old.breaks then u.coreMended n else u) := by
    split
    · exact hbroken u hu
    · split
      · exact hmended u hu
      · exact hu
  have hcancelled : P (match r.state with
      | .sound => t | .leaky => t
      | .untested | .suspect | .opened | .crossFeed => { t with scanner := t.scanner.cancelLeak n }) := by
    cases r.state with
    | sound | leaky => exact hset
    | untested | suspect | opened | crossFeed => exact hcancel t hset
  split
  · exact hset
  · split
    · exact hevidence _ (hproved _ (halarms _ _ hcancelled))
    · exact hproved _ (halarms _ _ hcancelled)

theorem alarmEvents_refreshRed_greens (s : State) (n : Byte) (l : List AlarmEvent) :
    GreensKept s (s.alarmEvents n l).refreshRed :=
  (alarmEvents_greens s n l).trans (refreshRed_greens _)

theorem clearProving_greens (s : State) (n : CircuitId) : GreensKept s (s.clearProving n) := by
  refine .trans ?_ (alarmEvents_refreshRed_greens _ _ _)
  exact .of_same

theorem coreBroken_greens (s : State) (n : CircuitId) : GreensKept s (s.coreBroken n) := by
  unfold State.coreBroken
  split
  · exact .refl s
  · exact .refl s
  all_goals exact GreensKept.trans (t := s.setCircuit n _) .of_same (alarmEvents_refreshRed_greens _ _ _)

theorem coreMended_greens (s : State) (n : CircuitId) : GreensKept s (s.coreMended n) := by
  unfold State.coreMended
  split
  · exact GreensKept.trans (t := s.setCircuit n _) .of_same (refreshRed_greens _)
  all_goals exact .refl s

theorem currentReading_greens (s : State) (n : CircuitId) (v : Nat) : GreensKept s (s.currentReading n v) := by
  unfold State.currentReading
  dsimp only
  refine .ite (fun _ => .trans (.ite (fun _ => .of_same) .of_same) (alarmEvents_refreshRed_greens _ _ _)) .of_same

theorem moveCore_greens (s : State) (n : CircuitId) (r : CoreRecord) : GreensKept s (s.moveCore n r) :=
  moveCore_keeps (GreensKept s) .of_same (fun _ h => h.trans .of_same) (fun _ _ h => h.trans (alarmEvents_greens _ _ _))
    (fun _ h => h.trans (coreBroken_greens _ n)) (fun _ h => h.trans (coreMended_greens _ n))
    (fun _ h => h.trans (refreshEvidence_greens _))

theorem voltageReading_greens (s : State) (n : CircuitId) (v : Nat) : GreensKept s (s.voltageReading n v) :=
  .ite (fun _ => moveCore_greens s n _) (.refl s)

theorem coreRetest_greens (s : State) (n : CircuitId) : GreensKept s (s.coreRetest n) := by
  refine .trans ?_ (moveCore_greens _ n _)
  exact .of_same

theorem switch_greens (s : State) (n : CircuitId) (on : Bool) : GreensKept s (s.switch n on) := .ite (fun _ => .of_same) .of_same

theorem applyTargets_greens (s : State) : GreensKept s s.applyTargets :=
  .trans (foldl_greens _ (fun t n => .ite (fun _ => .refl t) (switch_greens t n _)) _ s) (refreshEvidence_greens _)

theorem raise_greens (s : State) (c : AlarmCode) (n : Byte) : GreensKept s (s.raise c n) := .of_same

theorem clear_greens (s : State) (c : AlarmCode) (n : Byte) : GreensKept s (s.clear c n) := .of_same

theorem remember_greens (t s : State) : GreensKept t (t.remember s) := by
  unfold State.remember
  exact .of_same

theorem forget_greens (s : State) : GreensKept s s.forget := by
  unfold State.forget
  exact .of_same

theorem takeBack_greens (s : State) : GreensKept s s.takeBack := by
  unfold State.takeBack
  exact .of_same

theorem applyLost_greens (s : State) : GreensKept s s.applyLost := by
  unfold State.applyLost
  split
  · exact (applyTargets_greens s).trans (remember_greens _ s)
  · exact .refl s

theorem sampleSet_greens (s : State) (records : Vector DriveRecord 24) (values : Vector Nat 24) :
    GreensKept s (s.sampleSet records values) :=
  .trans (foldl_greens _ (fun t n => .ite (fun _ => currentReading_greens t n _) (.refl t)) _ s)
    (foldl_greens _ (fun t n => .ite (fun _ => voltageReading_greens t n _) (.refl t)) _ _)

theorem countMark_greens (s : State) : GreensKept s s.countMark := by
  unfold State.countMark
  dsimp only
  split
  · exact .of_same
  · refine .trans (.trans ?_ (takeBack_greens _)) (clear_greens _ _ _)
    exact .of_same

theorem driveFall_greens (s : State) : GreensKept s s.driveFall := by
  unfold State.driveFall
  dsimp only
  refine .trans (.trans (.trans (.trans ?_ (applyTargets_greens _)) (forget_greens _)) (toDark_greens _ _)) (raise_greens _ _ _)
  exact .of_same

theorem driveRise_greens (s : State) : GreensKept s s.driveRise := by
  unfold State.driveRise
  dsimp only
  refine .trans ?_ (.ite (fun _ => shift_greens _ _ _) (.ite (fun _ => shift_greens _ _ _) (enterStart_greens _ _)))
  exact .of_same

theorem loseMains_greens (s : State) : GreensKept s s.loseMains := by
  refine .trans ?_ (applyTargets_greens _)
  exact .of_same

/-! ### Stages and demand -/

theorem minStart_greens (s : State) : GreensKept s s.minStart := by
  unfold State.minStart
  split
  · exact .refl s
  · exact .of_same

theorem completeStage_greens (s : State) : GreensKept s s.completeStage := by
  unfold State.completeStage
  split
  · exact .ite (fun _ => minStart_greens s) (.refl s)
  · exact .refl s

theorem changeStage_greens (s : State) (leaving : Bool) (t : Nat) : GreensKept s (s.changeStage leaving t) := by
  have hend : GreensKept s (match leaving, s.seq.stage with
      | true, some old => s.stageEnd old
      | _, _ => s) := by
    split
    · exact .of_same
    · exact .refl s
  unfold State.changeStage
  dsimp only
  refine hend.trans (.trans ?_ (.trans (changeRequests_greens _ t) (completeStage_greens _)))
  exact .of_same

theorem chooseStep_greens (s : State) (k : Nat) : GreensKept s (s.chooseStep k) := by
  refine .ite (fun _ => .trans ?_ (minStart_greens _)) (.trans ?_ (changeStage_greens _ _ _))
  · exact .of_same
  · exact .of_same

theorem planSwitch_greens (s : State) : GreensKept s s.planSwitch := by
  unfold State.planSwitch
  dsimp only
  split
  all_goals
    refine .trans ?_ (chooseStep_greens _ _)
    exact .of_same

theorem beginRest_greens (s : State) : GreensKept s s.beginRest := .of_same

theorem scanPlan_greens (s : State) : GreensKept s s.scanPlan := by
  unfold State.scanPlan
  dsimp only
  split
  · exact chooseStep_greens s _
  · refine .ite (fun _ => planSwitch_greens s) ?_
    split
    · exact chooseStep_greens s _
    · exact beginRest_greens s

theorem stepEnd_greens (s : State) : GreensKept s s.stepEnd := by
  unfold State.stepEnd
  split
  · exact .refl s
  all_goals exact .ite (fun _ => planSwitch_greens s) (scanPlan_greens s)

theorem restScan_greens (s : State) : GreensKept s s.restScan := .ite (fun _ => stepEnd_greens s) (.refl s)

theorem restSwitch_greens (s : State) : GreensKept s s.restSwitch :=
  .ite (fun _ => planSwitch_greens s) (.ite (fun _ => .of_same) (.refl s))

theorem holdEnded_greens (s : State) : GreensKept s s.holdEnded :=
  .ite (fun _ => stepEnd_greens s) (.ite (fun _ => planSwitch_greens s) (restScan_greens s))

theorem actForce_greens (s : State) (t : Nat) : GreensKept s (s.actForce t) := by
  refine .ite (fun _ => .trans ?_ (minStart_greens _)) (.trans ?_ (changeStage_greens _ _ _))
  · exact .of_same
  · exact .of_same

theorem extensionEvent_greens (s : State) : GreensKept s s.extensionEvent := by
  unfold State.extensionEvent
  split
  · exact .of_same
  · exact .refl s

theorem demandEvent_greens (s : State) (d : LineId) : GreensKept s (s.demandEvent d) := by
  unfold State.demandEvent
  dsimp only
  refine .ite (fun _ => ?_) (.refl s)
  have hevent (u : State) (p : Prop) [Decidable p] : GreensKept u (if p then u.extensionEvent else u) :=
    .ite (fun _ => extensionEvent_greens u) (.refl u)
  have hset (r : Half) : GreensKept s { s with demand := { s.demand with register := r } } := .of_same
  exact .ite (fun _ => (hset _).trans (hevent _ _)) (((hset _).trans (hevent _ _)).trans (restScan_greens _))

theorem raiseLines_greens (s : State) (word : Half) : GreensKept s (s.raiseLines word) :=
  foldl_greens _ (fun t d => .ite (fun _ => demandEvent_greens t d) (.refl t)) _ s

end Sys2Proof.Machine
end

section
/-! PROOFS. The swap leaves no group in right of way, and no command brings conflicting greens together (R69, R72, R84). -/

namespace Sys2Proof.Machine

-- One declaration at a time, as in the tests: declarations that wait for one another each hold a thread with its stack.
set_option Elab.async false

open Sys2Proof.Safety

/-! ### The swap -/

/-- With no group withheld there is nothing to check again. -/
theorem recheckAround_eq_self {s : State} (h : ∀ g : GroupId, s.groups[g].withheld = false) (i : GroupId) : s.recheckAround i = s := by
  have hrecheck (g : GroupId) : s.recheck g = s := by
    simp only [State.recheck, h g, Bool.false_and, Bool.false_eq_true, ↓reduceIte]
  refine foldl_keeps (fun t => t = s) _ (fun t g ht => ?_) _ s rfl
  rw [ht, hrecheck g, ite_self]

/-- Aspect, kind and withholding are as they were. -/
def AspectsSame (s t : State) : Prop :=
  ∀ g : GroupId, t.groups[g].aspect = s.groups[g].aspect ∧ t.groups[g].kind = s.groups[g].kind ∧
    t.groups[g].withheld = s.groups[g].withheld

theorem AspectsSame.trans {s t u : State} (h : AspectsSame s t) (k : AspectsSame t u) : AspectsSame s u := fun g =>
  ⟨(k g).1.trans (h g).1, (k g).2.1.trans (h g).2.1, (k g).2.2.trans (h g).2.2⟩

/-- A red status that does not become LOST, with no group withheld. -/
theorem setRedStatus_aspects {s : State} (h : ∀ g : GroupId, s.groups[g].withheld = false) (g : GroupId) {v : RedStatus}
    (hv : v ≠ .lost) : AspectsSame s (s.setRedStatus g v) := by
  have hset : AspectsSame s (s.setGroup g { s.groups[g] with redStatus := v }) := fun i => by
    rw [getElem_setGroup]
    split
    next heq => exact heq ▸ ⟨rfl, rfl, rfl⟩
    next => exact ⟨rfl, rfl, rfl⟩
  have hnone : ∀ i : GroupId, (s.setGroup g { s.groups[g] with redStatus := v }).groups[i].withheld = false := fun i =>
    (hset i).2.2.trans (h i)
  unfold State.setRedStatus
  rw [recheckAround_eq_self hnone]
  dsimp only
  split
  next => exact absurd rfl hv
  next => exact hset
  next => exact hset
  next => exact absurd rfl hv
  next => exact absurd rfl hv
  all_goals exact hset

/-- With no red LOST and no group withheld, a refresh of the red status leaves the aspects. -/
theorem refreshRed_aspects {s : State} (hlost : ∀ g, s.redStatusOf g ≠ .lost) (h : ∀ g : GroupId, s.groups[g].withheld = false) :
    AspectsSame s s.refreshRed := by
  have hkept : AspectsSame s s.refreshRed ∧ ∀ g, s.refreshRed.redStatusOf g ≠ .lost := by
    refine foldl_keeps (fun t => AspectsSame s t ∧ ∀ g, t.redStatusOf g ≠ .lost) _ (fun t g ht => ?_) _ s
      ⟨fun _ => ⟨rfl, rfl, rfl⟩, hlost⟩
    obtain ⟨hsame, hfine⟩ := ht
    split
    · exact ⟨hsame, hfine⟩
    · exact ⟨hsame.trans (setRedStatus_aspects (fun i => (hsame i).2.2.trans (h i)) g (hfine g)),
        fun i => by rw [(setRedStatus_control t g _).redStatusOf]; exact hfine i⟩
  exact hkept.1

theorem alarmEvents_groups (s : State) (n : Byte) (l : List AlarmEvent) : (s.alarmEvents n l).groups = s.groups :=
  foldl_keeps (fun t : State => t.groups = s.groups) _ (fun t e ht => by split <;> exact ht) l s rfl

theorem foldl_alarmEvents_groups (f : CircuitId → List AlarmEvent) (l : List CircuitId) (s : State) :
    (l.foldl (fun (t : State) n => t.alarmEvents (BitVec.ofNat 8 n.val) (f n)) s).groups = s.groups :=
  foldl_keeps (fun t : State => t.groups = s.groups) _ (fun t _ ht => (alarmEvents_groups t _ _).trans ht) l s rfl

theorem swapCircuits_groups (s : State) : s.swapCircuits.groups = s.groups := by
  unfold State.swapCircuits
  dsimp only
  exact foldl_alarmEvents_groups _ _ s

theorem swapCores_groups (s : State) : s.swapCores.groups = s.groups := by
  unfold State.swapCores
  dsimp only
  exact foldl_alarmEvents_groups _ _ s

/-- A group that the new configuration does not use is DARK, and no group is withheld (R69). -/
theorem swapTables_groups (s : State) (g : GroupId) :
    (s.swapTables.groups[g].kind = .unused → s.swapTables.groups[g].aspect = .dark) ∧
      s.swapTables.groups[g].withheld = false := by
  simp only [State.swapTables, Fin.getElem_fin, Vector.getElem_ofFn, Group.swapped, Group.plain, and_true]
  exact fun h => if_pos h

/-- No group outside the configuration is in right of way. -/
def UnusedOff (s : State) : Prop := ∀ g : GroupId, s.groups[g].kind = .unused → s.groups[g].aspect.rightOfWay = false

/-- A whole-junction request that shows no green leaves no group in right of way. -/
theorem showAll_noGreens {s : State} (h : UnusedOff s) {v p : Aspect} (hv : v.rightOfWay = false := by rfl)
    (hp : p.rightOfWay = false := by rfl) : NoGreens (s.showAll v p) := by
  intro g
  rw [showAll_getElem, ← Bool.not_eq_true]
  intro hg
  obtain ⟨hkind, haspect⟩ := Group.show_rightOfWay _ _ hv hp hg
  rw [h g hkind] at haspect
  cases haspect

theorem NoGreens.safe {t : State} (h : NoGreens t) : NoConflictingGreens t := by
  rintro i j - ⟨hi, -⟩
  rw [h i] at hi
  cases hi

/-- After the records of the swap no circuit counts toward LOST (R137). -/
theorem swap_redGone (s : State) (n : CircuitId) : s.swapCircuits.swapCores.redGone n = false := by
  obtain ⟨-, -, hcircuits, hdrive⟩ := swapCores_keeps s.swapCircuits
  obtain ⟨hstate, hlockout⟩ := swapCircuits_fresh s n
  simp only [State.redGone, hcircuits, hdrive, hlockout]
  rcases hstate with e | e <;> rw [e] <;> rfl

/-- The tables, the records and the red status at the swap leave unused groups out of right of way. -/
theorem swap_unusedOff (s : State) : UnusedOff ((s.swapTables.swapCircuits.swapCores.refreshRed).clear .configEmpty 255) := by
  intro g hkind
  have hsame : AspectsSame s.swapTables s.swapTables.swapCircuits.swapCores.refreshRed := by
    have hgroups : s.swapTables.swapCircuits.swapCores.groups = s.swapTables.groups :=
      (swapCores_groups _).trans (swapCircuits_groups _)
    have hnone (i : GroupId) : s.swapTables.swapCircuits.swapCores.groups[i].withheld = false := by
      rw [hgroups]
      exact (swapTables_groups s i).2
    intro i
    have hred := refreshRed_aspects (not_lost_of_fresh _ (swap_redGone _)) hnone i
    rwa [hgroups] at hred
  rw [clear_groups] at hkind ⊢
  rw [(hsame g).1, (swapTables_groups s g).1 ((hsame g).2.1.symm.trans hkind)]
  rfl

theorem swapMode_safe {s : State} (h : UnusedOff s) : NoConflictingGreens s.swapMode := by
  have hshift (m : JunctionMode) (f : Fallback) : UnusedOff (s.shift m f) := fun g => by
    rw [shift_groups]
    exact h g
  have hstart (f : Fallback) : NoConflictingGreens (s.enterStart f) :=
    enterStart_greens_of_showRed (.refl _) (showAll_noGreens (fun g => by rw [shift_groups]; exact h g)).safe
  unfold State.swapMode
  split
  · exact hstart _
  · exact hstart _
  · exact hstart _
  · exact (showAll_noGreens h).safe
  · exact (showAll_noGreens h).safe
  · split
    · exact hstart _
    · split
      · exact (showAll_noGreens (hshift _ _)).safe
      · exact (showAll_noGreens h).safe

/-- The evidence is not the aspect. -/
theorem swapEvidence_greens (s : State) : GreensKept s s.swapEvidence :=
  .of_aspects rfl (fun g hg => by simpa [State.swapEvidence, State.dropEndedPairs] using hg)

theorem swapConflicts_greens (s : State) : GreensKept s s.swapConflicts :=
  foldl_greens _ (fun t p => conflictDetected_greens t [p]) _ s

/-- The swap brings in another conflict matrix, and leaves no group in right of way under it. -/
theorem swap_greens (s : State) : GreensKept s s.swap := fun _ =>
  swapConflicts_greens _ (swapEvidence_greens _ (swapMode_safe (swap_unusedOff s)))

/-! ### The transfer and settling -/

theorem beginClearing_greens (s : State) : GreensKept s s.beginClearing := by
  refine .trans ?_ (clearToRed_greens _)
  exact .of_same

theorem activationPending_greens (s : State) : GreensKept s s.activationPending := by
  have hclearing : GreensKept s { s with mgmt := { s.mgmt with activation := .pending } }.beginClearing := by
    refine .trans ?_ (beginClearing_greens _)
    exact .of_same
  unfold State.activationPending
  dsimp only
  split
  · split
    · exact hclearing
    · exact hclearing
    all_goals exact .of_same
  · exact hclearing
  all_goals exact .of_same

theorem activate_greens (s : State) : GreensKept s s.activate := by
  unfold State.activate
  split
  · exact .refl s
  · split
    iterate 3 exact swap_greens s
    all_goals exact .ite (fun _ => swap_greens s) (.refl s)

theorem runFailRed_greens (s : State) : GreensKept s s.runFailRed := by
  unfold State.runFailRed
  split
  · exact .ite (fun _ => .of_same) (.refl s)
  · exact .refl s
  · exact .refl s

theorem settleOnce_greens (s : State) : GreensKept s s.settleOnce :=
  (((completeStage_greens s).trans (runFailRed_greens _)).trans (activate_greens _)).trans (applyLost_greens _)

theorem settle_greens (s : State) : GreensKept s s.settle :=
  ((settleOnce_greens s).trans (settleOnce_greens _)).trans (settleOnce_greens _)

/-! ### Resets and the store -/

/-- A reset leaves every group DARK (R17). -/
theorem wiped_noGreens (s : State) (phase : ResetPhase) (clock : Word) (clockSince : Nat) (last : CauseRecord) :
    NoGreens (s.wiped phase clock clockSince last) := fun g => by
  simp [State.wiped, State.reset, Aspect.rightOfWay]

/-- The load changes the kinds alone of the groups (R73). -/
theorem loaded_noGreens {s : State} (h : NoGreens s) (ident : BitVec 4) (bench driveEn : Bool) :
    NoGreens (s.loaded ident bench driveEn) := fun g => by
  simpa [State.loaded] using h g

theorem resetRaises_greens (s : State) : GreensKept s s.resetRaises := by
  unfold State.resetRaises
  dsimp only
  have hempty (p q : Prop) [Decidable p] [Decidable q] (t : State) : GreensKept t
      (if q then (if p then t.raise .configEmpty 255 else t)
        else (if p then t.raise .configEmpty 255 else t).raise .driveOff 255) := by
    have hfirst : GreensKept t (if p then t.raise .configEmpty 255 else t) := .ite (fun _ => raise_greens _ _ _) (.refl t)
    exact .ite (fun _ => hfirst) (hfirst.trans (raise_greens _ _ _))
  exact (raise_greens s .lineDown 255).trans (hempty _ _ _)

theorem resetMode_greens (s : State) : GreensKept s s.resetMode :=
  .ite (fun _ => .of_same) (.ite (fun _ => enterStart_greens s _) .of_same)

theorem endReset_greens (s : State) (ident : BitVec 4) (bench driveEn : Bool) (clock : Word) (clockSince : Nat)
    (last : CauseRecord) : GreensKept s (s.endReset ident bench driveEn clock clockSince last) :=
  ((loaded_noGreens (wiped_noGreens s _ _ _ _) _ _ _).greens.trans (resetRaises_greens _)).trans (resetMode_greens _)

end Sys2Proof.Machine
end

section
/-! PROOFS. LOAD, CALL, the Ring Port Unit and every command: none brings conflicting greens together (R84). -/

namespace Sys2Proof.Machine

-- One declaration at a time, as in the tests: declarations that wait for one another each hold a thread with its stack.
set_option Elab.async false

open Sys2Proof.Safety

/-! ### LOAD -/

theorem startMaskWrite_greens (s : State) : GreensKept s s.startMaskWrite := by
  unfold State.startMaskWrite
  split
  all_goals exact .of_same

theorem protect_greens (s : State) (which bits : Half) : GreensKept s (s.protect which bits) := by
  unfold State.protect
  dsimp only
  refine .ite (fun _ => .of_same) (.trans ?_ (startMaskWrite_greens _))
  exact .of_same

theorem clearProvingAll_greens (s : State) (b : Byte) : GreensKept s (s.clearProvingAll b) :=
  (foldl_greens _ clearProving_greens _ s).trans (settle_greens _)

theorem coreRetestAll_greens (s : State) (b : Byte) : GreensKept s (s.coreRetestAll b) :=
  (foldl_greens _ coreRetest_greens _ s).trans (settle_greens _)

/-- A control that acts on the byte that a LOAD carries for it, if any. -/
theorem GreensKept.of_byte {s : State} (f : Byte → State) (h : ∀ b, GreensKept s (f b)) (o : Option Byte) :
    GreensKept s (match o with | none => s | some b => f b) := by
  cases o with
  | none => exact .refl s
  | some b => exact h b

theorem loadControls_greens (s : State) (p : Span) (data : List Byte) : GreensKept s (s.loadControls p data) := by
  unfold State.loadControls
  dsimp only
  refine .trans ?_ (.ite (fun _ => .refl _) (protect_greens _ _ _))
  refine .trans ?_ (.ite (fun _ => .of_same) (.refl _))
  refine .trans ?_ (.of_byte _ (coreRetestAll_greens _) _)
  refine .trans ?_ (.of_byte _ (clearProvingAll_greens _) _)
  refine .trans ?_ (.of_byte _ (fun _ => .of_same) _)
  refine .trans (t := State.stageFlagClear _ _) ?_ (.refl _)
  refine .trans ?_ (GreensKept.of_same (t := State.stageFlagClear _ _))
  refine .trans ?_ (.ite (fun _ => .of_same) (.refl _))
  refine .trans ?_ (.ite (fun _ => .of_same) (.refl _))
  exact .ite (fun _ => .of_same) (.refl s)

theorem loadAct_greens (s : State) (p : Span) (data : List Byte) : GreensKept s (s.loadAct p data).2 := by
  unfold State.loadAct
  split
  · exact .of_same
  · split
    · split
      · exact .of_same
      · refine .trans ?_ (loadControls_greens _ p data)
        exact .of_same
    · exact loadControls_greens s p data

theorem loadAnswer_greens (s : State) (payload : List Byte) : GreensKept s (s.loadAnswer payload).2 := by
  unfold State.loadAnswer
  split
  · exact .refl s
  · split
    · exact .refl s
    · split
      · exact .refl s
      · split
        · exact .of_same
        · exact loadAct_greens s _ _

/-! ### CALL -/

theorem answerPlan_greens (s : State) (n : Byte) : GreensKept s (s.answerPlan n).2 := by
  unfold State.answerPlan
  split
  · exact .refl s
  · split
    · exact .refl s
    · split
      · exact .refl s
      · refine .trans ?_ (restSwitch_greens _)
        exact .of_same

theorem answerForce_greens (s : State) (n : Byte) : GreensKept s (s.answerForce n).2 := by
  unfold State.answerForce
  split
  · exact .refl s
  · split
    · exact .refl s
    · split
      · exact .refl s
      · dsimp only
        split
        · exact actForce_greens s _
        · exact actForce_greens s _
        all_goals exact .of_same

theorem answerHold_greens (s : State) : GreensKept s s.answerHold.2 := by
  unfold State.answerHold
  split
  · exact .refl s
  · split
    · exact .refl s
    · exact .of_same

theorem afterRelease_greens (s : State) (before : Sequencer) : GreensKept s (s.afterRelease before) :=
  .ite (fun _ => stepEnd_greens s) (.ite (fun _ => holdEnded_greens s) (.refl s))

theorem answerRelease_greens (s : State) : GreensKept s s.answerRelease.2 := by
  unfold State.answerRelease
  split
  · exact .refl s
  · refine .trans ?_ (afterRelease_greens _ _)
    exact .of_same

theorem answerAllRed_greens (s : State) : GreensKept s s.answerAllRed.2 := by
  unfold State.answerAllRed
  split
  · dsimp only
    refine .trans ?_ (clearToRed_greens _)
    exact .of_same
  all_goals exact .refl s

theorem resumeRun_greens (s : State) : GreensKept s s.resumeRun := by
  unfold State.resumeRun
  dsimp only
  refine .trans ?_ (changeStage_greens _ _ _)
  exact .of_same

theorem resumeSupervised_greens (s : State) : GreensKept s s.resumeSupervised := by
  refine .trans ?_ (restSwitch_greens _)
  exact .of_same

theorem clearStalls_greens (s : State) : GreensKept s s.clearStalls :=
  foldl_greens (fun t (e : AlarmEntry) => t.clear .stall e.subject) (fun t _ => clear_greens t _ _) _ s

theorem resumeFallback_greens (s : State) : GreensKept s s.resumeFallback :=
  (enterStart_greens s _).trans (clearStalls_greens _)

theorem answerResume_greens (s : State) : GreensKept s s.answerResume.2 := by
  unfold State.answerResume
  split
  · exact .refl s
  · split
    · exact resumeRun_greens s
    · split
      · exact .refl s
      · split
        · exact resumeSupervised_greens s
        · exact .refl s
    · exact .refl s
    · exact .refl s
    all_goals
      split
      · exact .refl s
      · exact resumeFallback_greens s

theorem answerFlash_greens (s : State) : GreensKept s s.answerFlash.2 := by
  unfold State.answerFlash
  split
  iterate 4 exact toFlash_greens s _
  iterate 2 exact .refl s

theorem answerDark_greens (s : State) : GreensKept s s.answerDark.2 := by
  unfold State.answerDark
  split
  iterate 5 exact toDark_greens s _
  exact .refl s

theorem restartSupervision_greens (s : State) : GreensKept s s.restartSupervision := .ite (fun _ => .refl s) .of_same

/-- The state that comes with an answer. -/
def AnswerSafe (s : State) (r : Verdict × State) : Prop := GreensKept s r.2

theorem AnswerSafe.refl (s : State) (v : Verdict) : AnswerSafe s (v, s) := GreensKept.refl s

theorem AnswerSafe.ite {s : State} {a b : Verdict × State} {p : Prop} [Decidable p] (h : AnswerSafe s a) (k : AnswerSafe s b) :
    AnswerSafe s (if p then a else b) := by
  split
  · exact h
  · exact k

/-- Each command of the table of 11.1, then the code that names none (R112). -/
theorem callCommand_greens (s : State) (payload : List Byte) : AnswerSafe s (s.callCommand payload) := by
  unfold State.callCommand
  split
  · exact .refl s _
  · refine .ite ?plan (.ite ?force (.ite (answerHold_greens s) (.ite (answerRelease_greens s) (.ite (answerAllRed_greens s)
      (.ite (answerFlash_greens s) (.ite (answerDark_greens s) (.ite (answerResume_greens s)
        (.ite ?demand (.ite ?time (.refl s _))))))))))
    case plan =>
      split
      · exact answerPlan_greens s _
      · exact .refl s _
    case force =>
      split
      · exact answerForce_greens s _
      · exact .refl s _
    case demand =>
      split
      · exact raiseLines_greens s _
      · exact .refl s _
    case time =>
      split
      · exact GreensKept.of_same
      · exact .refl s _

theorem callAnswer_greens (s : State) (payload : List Byte) : GreensKept s (s.callAnswer payload).2 := by
  unfold State.callAnswer callDone
  split
  · exact (GreensKept.trans (callCommand_greens s payload) (restartSupervision_greens _)).trans (settle_greens _)
  · exact callCommand_greens s payload

/-! ### The arrival of a frame -/

theorem manage_greens (s : State) (f : Frame) : GreensKept s (s.manage f).2 := by
  unfold State.manage
  split
  · exact .refl s
  · split
    · exact loadAnswer_greens s _
    · split
      · split
        · exact callAnswer_greens s _
        · exact .of_same
      · unfold State.echoAnswer
        dsimp only
        split
        · exact .of_same
        · exact .refl s

theorem snoop_greens (s : State) (f : Frame) (e : Nat) : GreensKept s (s.snoop f e) :=
  .ite (fun _ => (raiseLines_greens s _).trans (settle_greens _)) (.refl s)

theorem enqueue_greens (s : State) (q : QueuedFrame) : GreensKept s (s.enqueue q) := .of_same

theorem classify_greens (s : State) (f : Frame) : GreensKept s (s.classify f) := by
  unfold State.classify
  split
  · exact .of_same
  · split
    · exact .of_same
    · split
      · split
        · exact (manage_greens s f).trans (enqueue_greens _ _)
        · exact enqueue_greens s _
      · split
        · exact enqueue_greens s _
        · exact (snoop_greens s f _).trans (enqueue_greens _ _)
        · exact .of_same

theorem countGood_greens (s : State) : GreensKept s s.countGood := by
  unfold State.countGood
  split
  · exact .ite (fun _ => .of_same) .of_same
  · exact .refl s
  · exact .refl s

theorem goodFrame_greens (s : State) (f : Frame) : GreensKept s (s.goodFrame f) :=
  (countGood_greens s).trans (.ite (fun _ => classify_greens _ f) .of_same)

theorem waiting_goodFrame_greens (s : State) (f : Frame) : GreensKept s (s.waiting.goodFrame f) :=
  GreensKept.trans (t := s.waiting) .of_same (goodFrame_greens _ f)

theorem handOn_greens (f : Frame) (s : State) : GreensKept s (s.handOn f) := by
  unfold State.handOn
  split
  · exact .refl s
  all_goals exact .ite (fun _ => waiting_goodFrame_greens s f) (.refl s)

/-! ### RING IN -/

theorem frameEnded_greens (s : State) (bytes : List Byte) (bad : Bool) : GreensKept s (s.frameEnded bytes bad) := by
  unfold State.frameEnded
  split
  · exact .of_same
  · split
    · exact .of_same
    · exact waiting_goodFrame_greens s _

theorem frameStart_greens (s : State) : GreensKept s s.frameStart := .of_same

theorem startMarker_greens (s : State) : GreensKept s s.startMarker := by
  unfold State.startMarker
  split
  · exact .refl s
  all_goals
    split
    · exact (frameEnded_greens s _ _).trans (frameStart_greens _)
    · exact frameStart_greens s
    · exact frameStart_greens s

theorem onLine_greens (s : State) (f : LineRecord → LineRecord) : GreensKept s (s.onLine f) := .of_same

theorem enterDown_greens (s : State) : GreensKept s s.enterDown := .of_same

theorem markSeeking_greens (s : State) : GreensKept s s.markSeeking := by
  unfold State.markSeeking
  dsimp only
  split
  · exact onLine_greens s _
  · exact .ite (fun _ => .ite (fun _ => .of_same) .of_same) ((enterDown_greens s).trans (onLine_greens _ _))

theorem validMark_greens (s : State) : GreensKept s s.validMark := by
  unfold State.validMark
  dsimp only
  split
  · exact onLine_greens s _
  · exact markSeeking_greens s
  · exact onLine_greens s _

theorem invertedMarkCounted_greens (s : State) : GreensKept s s.invertedMarkCounted :=
  .ite (fun _ => onLine_greens s _) ((onLine_greens s _).trans (validMark_greens _))

theorem dataByte_greens (s : State) (b : Byte) : GreensKept s (s.dataByte b) := by
  unfold State.dataByte
  split
  · exact .refl s
  · exact .of_same
  · exact .ite (fun _ => .of_same) .of_same

theorem endMarker_greens (s : State) : GreensKept s s.endMarker := by
  unfold State.endMarker
  split
  · exact .refl s
  · exact frameEnded_greens s _ _
  · exact .of_same

/-! ### Contacts and expiries -/

theorem sampleContact_greens (s : State) (k : ContactId) (closed : Bool) : GreensKept s (s.sampleContact k closed) := by
  unfold State.sampleContact
  dsimp only
  refine .ite (fun _ => ?_) (.ite (fun _ => .of_same) .of_same)
  refine .trans ?_ (demandEvent_greens _ _)
  exact .of_same

theorem setHeld_greens (s : State) (k : ContactId) (x : Option Nat) : GreensKept s (s.setHeld k x) := .of_same

theorem afterIsolation_greens (s : State) (held : Bool) : GreensKept s (s.afterIsolation held) :=
  .ite (fun _ => stepEnd_greens s) (.ite (fun _ => stepEnd_greens s) (.refl s))

theorem minEnded_greens (s : State) : GreensKept s s.minEnded := by
  unfold State.minEnded
  split
  · exact .refl s
  · exact beginClearing_greens s
  · split
    · exact actForce_greens s _
    · split
      · exact beginRest_greens s
      · exact stepEnd_greens s
      · exact .of_same

/-! ### Every command -/

/-- Whatever state a command ends in, it brings no conflicting greens together. -/
def EndsSafe (s : State) (o : Host.Outcome State Fault Refusal) : Prop := ∀ t, o = .next t → GreensKept s t

theorem EndsSafe.of_next {s t : State} (h : GreensKept s t) : EndsSafe s (.next t) := by
  rintro _ ⟨⟩
  exact h

theorem elapse_greens (dt : Nat) (s : State) : GreensKept s (elapse dt s) := .of_same

theorem live_safe {dt : Nat} {f : State → State} {s : State} (h : ∀ u, GreensKept u (f u)) : EndsSafe s (live dt f s) := by
  intro t ht
  by_cases hphase : s.phase = .notInReset
  · rw [live_next dt f s hphase] at ht
    cases ht
    exact (elapse_greens dt s).trans (h _)
  · rw [live_reset dt f s hphase] at ht
    cases ht
    exact elapse_greens dt s

/-- A command that acts when it is due, with all that follows at the same instant. -/
theorem live_due_safe {dt : Nat} {due : State → Prop} [DecidablePred due] {f : State → State} {s : State}
    (h : ∀ u, GreensKept u (f u)) : EndsSafe s (live dt (fun u => if due u then (f u).settle else u) s) :=
  live_safe (fun u => .ite (fun _ => (h u).trans (settle_greens _)) (.refl u))

theorem execResetEnd_safe (dt : Nat) (ident : BitVec 4) (bench driveEn : Bool) (s : State) :
    EndsSafe s (execResetEnd dt ident bench driveEn s) := by
  unfold execResetEnd
  dsimp only
  split
  · exact .of_next (elapse_greens dt s)
  all_goals exact .of_next ((elapse_greens dt s).trans (.ite (fun _ => endReset_greens _ _ _ _ _ _ _) (.refl _)))

theorem execStationResetCarriedOut_safe (dt : Nat) (s : State) : EndsSafe s (execStationResetCarriedOut dt s) :=
  live_safe (fun u => .ite (fun _ => (wiped_noGreens u _ _ _ _).greens) (.refl u))

theorem execKeepAliveMark_safe (dt : Nat) (s : State) : EndsSafe s (execKeepAliveMark dt s) := by
  refine live_safe (fun u => ?_)
  split
  · exact .ite (fun _ => .of_same) (.refl u)
  all_goals exact .refl u

theorem execMarkEnd_safe (dt : Nat) (s : State) : EndsSafe s (execMarkEnd dt s) := by
  refine live_safe (fun u => ?_)
  split
  · exact .refl u
  · exact .refl u
  · exact .ite (fun _ => .of_same) (.refl u)

theorem execTransmissionStart_safe (dt : Nat) (s : State) : EndsSafe s (execTransmissionStart dt s) := by
  refine live_safe (fun u => ?_)
  split
  · exact .of_same
  · exact .refl u

theorem execTransmissionEnd_safe (dt : Nat) (s : State) : EndsSafe s (execTransmissionEnd dt s) := by
  refine live_safe (fun u => ?_)
  split
  · exact .refl u
  · exact .refl u
  · exact .ite (fun _ => .of_aspects rfl (fun _ => id)) (.refl u)

theorem execInsertionAttempt_safe (dt : Nat) (s : State) : EndsSafe s (execInsertionAttempt dt s) := by
  refine live_safe (fun u => ?_)
  split
  · exact .refl u
  · exact .ite (fun _ => .ite (fun _ => .of_same) (.ite (fun _ => .of_same) .of_same)) (.refl u)

theorem symbol_greens (s : State) : GreensKept s s.symbol := .of_same

theorem execValidMark_safe (dt width : Nat) (s : State) : EndsSafe s (execValidMark dt width s) := by
  refine live_safe (fun u => ?_)
  split
  · exact .ite (fun _ => validMark_greens u) (.refl u)
  · exact symbol_greens u
  · exact symbol_greens u

theorem execInvertedMark_safe (dt width : Nat) (s : State) : EndsSafe s (execInvertedMark dt width s) := by
  refine live_safe (fun u => ?_)
  split
  · refine .ite (fun _ => ?_) (.refl u)
    split
    · exact invertedMarkCounted_greens u
    · exact invertedMarkCounted_greens u
    · exact .refl u
  · exact symbol_greens u
  · exact symbol_greens u

theorem execInvertedStartMarker_safe (dt : Nat) (s : State) : EndsSafe s (execInvertedStartMarker dt s) := by
  refine live_safe (fun u => ?_)
  split
  · exact (onLine_greens u _).trans (startMarker_greens _)
  · exact (onLine_greens u _).trans (startMarker_greens _)
  · exact .of_same

theorem execDiscardingSilence_safe (dt : Nat) (s : State) : EndsSafe s (execDiscardingSilence dt s) := by
  refine live_safe (fun u => ?_)
  split
  · exact .refl u
  · exact .refl u
  · exact .ite (fun _ => .of_same) (.refl u)

theorem execSeekingTimeout_safe (dt : Nat) (s : State) : EndsSafe s (execSeekingTimeout dt s) := by
  refine live_safe (fun u => ?_)
  split
  · exact .refl u
  · exact .ite (fun _ => enterDown_greens u) (.refl u)
  · exact .refl u

theorem execSilenceWatchdog_safe (dt : Nat) (s : State) : EndsSafe s (execSilenceWatchdog dt s) := by
  refine live_safe (fun u => ?_)
  split
  · exact .refl u
  · exact .refl u
  · exact .ite (fun _ => enterDown_greens u) (.refl u)

theorem imageWritten_greens (s : State) (maskNext : Bool) : GreensKept s (s.imageWritten maskNext) := .of_same

theorem execImageWriteEnd_safe (dt : Nat) (s : State) : EndsSafe s (execImageWriteEnd dt s) := by
  refine live_safe (fun u => ?_)
  split
  · exact .refl u
  · exact .refl u
  · exact .ite (fun _ => ((imageWritten_greens u _).trans (activationPending_greens _)).trans (settle_greens _)) (.refl u)

theorem execMaskWriteEnd_safe (dt : Nat) (s : State) : EndsSafe s (execMaskWriteEnd dt s) := by
  refine live_safe (fun u => ?_)
  split
  · exact .refl u
  · exact .refl u
  · exact .ite (fun _ => .of_same) (.refl u)

theorem execContactSample_safe (dt : Nat) (levels : Byte) (s : State) : EndsSafe s (execContactSample dt levels s) := by
  refine live_safe (fun u => .ite (fun _ => ?_) (.refl u))
  refine .trans (.trans ?_ (foldl_greens _ (fun t k => sampleContact_greens t k _) _ _)) (settle_greens _)
  exact .of_same

theorem execHeldExtension_safe (dt : Nat) (k : ContactId) (s : State) : EndsSafe s (execHeldExtension dt k s) := by
  refine live_safe (fun u => .ite (fun _ => ?_) (setHeld_greens u k none))
  split
  · exact (setHeld_greens u k _).trans (extensionEvent_greens _)
  · exact .ite (fun _ => (setHeld_greens u k _).trans (extensionEvent_greens _)) (.refl u)

theorem tickClock_greens (s : State) : GreensKept s s.tickClock := .ite (fun _ => .of_same) (.refl s)

theorem execCabinetClockTick_safe (dt : Nat) (s : State) : EndsSafe s (execCabinetClockTick dt s) := by
  unfold execCabinetClockTick
  dsimp only
  split
  · exact .of_next ((elapse_greens dt s).trans (tickClock_greens _))
  · exact .of_next (elapse_greens dt s)
  · exact .of_next ((elapse_greens dt s).trans (tickClock_greens _))

theorem execSupervisionExpiry_safe (dt : Nat) (s : State) : EndsSafe s (execSupervisionExpiry dt s) := by
  refine live_safe (fun u => ?_)
  split
  · exact .refl u
  · refine .ite (fun _ => ?_) (.refl u)
    refine .trans (.trans (.trans ?_ (raise_greens _ _ _)) (afterIsolation_greens _ _)) (settle_greens _)
    exact .of_same

theorem execStartRedExpiry_safe (dt : Nat) (s : State) : EndsSafe s (execStartRedExpiry dt s) := by
  refine live_safe (fun u => .ite (fun _ => ?_) (.refl u))
  refine .trans (.trans ?_ (changeStage_greens _ _ _)) (settle_greens _)
  exact .of_same

theorem execStall_safe (dt : Nat) (s : State) : EndsSafe s (execStall dt s) := by
  refine live_safe (fun u => ?_)
  split
  · exact .ite (fun _ => ((raise_greens u _ _).trans (controlled_greens _ _ _)).trans (settle_greens _)) (.refl u)
  · exact .refl u

theorem execRedAmberExpiry_safe (dt : Nat) (g : GroupId) (s : State) : EndsSafe s (execRedAmberExpiry dt g s) :=
  live_due_safe (fun u => (setGroup_greens u g { u.groups[g] with timer := none } id).trans (tryGreen_greens _ g))

/-- The mark is counted, the changes applied, the readings taken, the blanking counted down. -/
theorem execHalfCycleMark_safe (dt : Nat) (values : Vector Nat 24) (s : State) : EndsSafe s (execHalfCycleMark dt values s) := by
  refine live_safe (fun u => ?_)
  refine .trans (.trans (((countMark_greens u).trans (applyTargets_greens _)).trans (sampleSet_greens _ u.drive.records values)) ?_)
    (settle_greens _)
  unfold State.unblank
  exact .of_same

theorem execFlashPhaseEdge_safe (dt : Nat) (s : State) : EndsSafe s (execFlashPhaseEdge dt s) := by
  refine live_safe (fun u => .ite (fun _ => ?_) (.refl u))
  refine .trans ?_ (settle_greens _)
  exact .of_same

theorem pinAt_greens (s : State) (level : Bool) (lasted : Nat) : GreensKept s (s.pinAt level lasted) := .of_same

theorem execDriveEnFall_safe (p : PinTime) (s : State) : EndsSafe s (execDriveEnFall p s) :=
  live_safe (fun u => .ite (fun _ => ((pinAt_greens u _ _).trans (driveFall_greens _)).trans (settle_greens _)) (pinAt_greens u _ _))

theorem execDriveEnRise_safe (p : PinTime) (s : State) : EndsSafe s (execDriveEnRise p s) :=
  live_safe (fun u => .ite (fun _ => ((pinAt_greens u _ _).trans (driveRise_greens _)).trans (settle_greens _)) (pinAt_greens u _ _))

theorem execMainsLost_safe (dt : Nat) (s : State) : EndsSafe s (execMainsLost dt s) := by
  refine live_safe (fun u => ?_)
  split
  · exact .ite (fun _ => (loseMains_greens u).trans (settle_greens _)) (.refl u)
  · exact .refl u

theorem execProbeReturn_safe (dt : Nat) (n : CircuitId) (amplitude width : Nat) (s : State) :
    EndsSafe s (execProbeReturn dt n amplitude width s) := by
  refine live_safe (fun u => ?_)
  split
  · exact .refl u
  · exact .ite (fun _ => (moveCore_greens u n _).trans (settle_greens _)) (.refl u)

theorem execLeakageTestStart_safe (dt : Nat) (s : State) : EndsSafe s (execLeakageTestStart dt s) := by
  refine live_safe (fun u => ?_)
  split
  · exact .of_same
  · exact .refl u

theorem execLeakageResult_safe (dt : Nat) (current : Nat) (s : State) : EndsSafe s (execLeakageResult dt current s) := by
  refine live_safe (fun u => ?_)
  split
  · exact .refl u
  · refine .ite (fun _ => ?_) (.refl u)
    refine .trans ?_ (moveCore_greens _ _ _)
    exact .of_same

theorem execMinExpiry_safe (dt : Nat) (s : State) : EndsSafe s (execMinExpiry dt s) := live_due_safe minEnded_greens

theorem execExtensionDeadline_safe (dt : Nat) (s : State) : EndsSafe s (execExtensionDeadline dt s) :=
  live_due_safe stepEnd_greens

theorem execRedAmberDue_safe (dt : Nat) (g : GroupId) (s : State) : EndsSafe s (execRedAmberDue dt g s) :=
  live_due_safe (fun u => tryRedAmber_greens u g)

theorem execEarliestGreenDue_safe (dt : Nat) (g : GroupId) (s : State) : EndsSafe s (execEarliestGreenDue dt g s) :=
  live_due_safe (fun u => tryGreen_greens u g)

theorem execAmberExpiry_safe (dt : Nat) (g : GroupId) (s : State) : EndsSafe s (execAmberExpiry dt g s) :=
  live_due_safe (fun u => endTermination_greens u g)

theorem execClearanceExpiry_safe (dt : Nat) (g : GroupId) (s : State) : EndsSafe s (execClearanceExpiry dt g s) :=
  live_due_safe (fun u => (endTermination_greens u g).trans (retryAround_greens _ g))

theorem execProbeRequest_safe (dt : Nat) (n : CircuitId) (s : State) : EndsSafe s (execProbeRequest dt n s) :=
  live_safe (fun u => .ite (fun _ => .of_same) (.refl u))

theorem execFailRedExpiry_safe (dt : Nat) (s : State) : EndsSafe s (execFailRedExpiry dt s) :=
  live_due_safe (fun u => toFlash_greens u _)

/-- Every command, in every state. -/
theorem exec_safe (c : Instr) (s : State) : EndsSafe s (exec c s) := by
  cases hframe : frameOf c with
  | some f =>
    rw [exec_frameOf c f hframe]
    exact live_safe (handOn_greens f)
  | none =>
    cases c with
    | echo | peek | load | commit | retire | clearCounters | stageFlagClear | mgmtStatusClear | clearProving | coreRetest
    | stationReset | protection | callDemand | plan | force | hold | release | allRed | resume | flash | dark | time =>
      cases hframe
    | powerOnReset p => exact .of_next (wiped_noGreens _ _ _ _ _).greens
    | resetEnd dt ident bench driveEn => exact execResetEnd_safe dt ident bench driveEn s
    | stationResetCarriedOut dt => exact execStationResetCarriedOut_safe dt s
    | keepAliveMark dt => exact execKeepAliveMark_safe dt s
    | markEnd dt => exact execMarkEnd_safe dt s
    | validMark dt width => exact execValidMark_safe dt width s
    | invertedMark dt width => exact execInvertedMark_safe dt width s
    | startMarker dt => exact live_safe startMarker_greens
    | invertedStartMarker dt => exact execInvertedStartMarker_safe dt s
    | dataByte dt b => exact live_safe (fun u => dataByte_greens u b)
    | invalidLineSymbol dt => exact live_safe symbol_greens
    | discardingSilence dt => exact execDiscardingSilence_safe dt s
    | seekingTimeout dt => exact execSeekingTimeout_safe dt s
    | silenceWatchdog dt => exact execSilenceWatchdog_safe dt s
    | endMarker dt => exact live_safe endMarker_greens
    | transmissionStart dt => exact execTransmissionStart_safe dt s
    | transmissionEnd dt => exact execTransmissionEnd_safe dt s
    | insertionAttempt dt => exact execInsertionAttempt_safe dt s
    | imageWriteEnd dt => exact execImageWriteEnd_safe dt s
    | maskWriteEnd dt => exact execMaskWriteEnd_safe dt s
    | contactSample dt levels => exact execContactSample_safe dt levels s
    | heldExtension dt k => exact execHeldExtension_safe dt k s
    | cabinetClockTick dt => exact execCabinetClockTick_safe dt s
    | supervisionExpiry dt => exact execSupervisionExpiry_safe dt s
    | startRedExpiry dt => exact execStartRedExpiry_safe dt s
    | minExpiry dt => exact execMinExpiry_safe dt s
    | extensionDeadline dt => exact execExtensionDeadline_safe dt s
    | stall dt => exact execStall_safe dt s
    | redAmberDue dt g => exact execRedAmberDue_safe dt g s
    | earliestGreenDue dt g => exact execEarliestGreenDue_safe dt g s
    | redAmberExpiry dt g => exact execRedAmberExpiry_safe dt g s
    | amberExpiry dt g => exact execAmberExpiry_safe dt g s
    | clearanceExpiry dt g => exact execClearanceExpiry_safe dt g s
    | halfCycleMark dt values => exact execHalfCycleMark_safe dt values s
    | flashPhaseEdge dt => exact execFlashPhaseEdge_safe dt s
    | driveEnFall p => exact execDriveEnFall_safe p s
    | driveEnRise p => exact execDriveEnRise_safe p s
    | mainsLost dt => exact execMainsLost_safe dt s
    | probeRequest dt n => exact execProbeRequest_safe dt n s
    | probeReturn dt n amplitude width => exact execProbeReturn_safe dt n amplitude width s
    | leakageTestStart dt => exact execLeakageTestStart_safe dt s
    | leakageResult dt current => exact execLeakageResult_safe dt current s
    | failRedExpiry dt => exact execFailRedExpiry_safe dt s

/-- Taking a command off the queue touches no group. -/
theorem step_greens {s t : State} (h : step s = .next t) : GreensKept s t := by
  unfold step at h
  split at h
  · cases h
    exact .refl s
  · rename_i c rest _
    exact GreensKept.trans (t := { s with pending := rest }) .of_same (exec_safe c _ t h)

/-- Settles O56: each command is made of operations that bring no conflicting groups into right of way together. -/
theorem noConflictingGreensKept : Obligations.NoConflictingGreensKept := fun _ _ hs h => step_greens h hs

end Sys2Proof.Machine
end

section
/-! PROOFS. The requests to one group, aspect by aspect, the earliest green, and the clearing to red (R79 to R82, R86). -/

namespace Sys2Proof.Machine

-- One declaration at a time, as in the tests: declarations that wait for one another each hold a thread with its stack.
set_option Elab.async false

open Sys2Proof.Safety

/-! ### Folds that visit each index once -/

/-- A fold whose step at `g` changes the part of index `g` alone, from that part as it stands: each part is changed once, from how it
stood at the start. `P` holds all along. -/
theorem foldl_once {σ ι α : Type} [DecidableEq ι] {f : σ → ι → σ} (get : σ → ι → α) (h : ι → α → α) (P : σ → Prop)
    (hP : ∀ t g, P t → P (f t g)) (hf : ∀ t g i, P t → get (f t g) i = if g = i then h g (get t g) else get t i)
    {l : List ι} (hl : l.Nodup) {t : σ} (ht : P t) (i : ι) :
    get (l.foldl f t) i = if i ∈ l then h i (get t i) else get t i := by
  induction l generalizing t with
  | nil => simp
  | cons g l ih =>
    obtain ⟨hg, hrest⟩ := List.nodup_cons.mp hl
    rw [List.foldl_cons, ih hrest (hP t g ht), hf t g i ht]
    by_cases hi : g = i
    · subst hi
      simp [hg]
    · have hne : i ≠ g := Ne.symm hi
      simp [hi, hne]

theorem groupIds_nodup : groupIds.Nodup := by decide

/-! ### The earliest green -/

theorem le_foldl_max {α : Type} (f : α → Nat) (l : List α) (a : Nat) :
    a ≤ l.foldl (fun e i => max e (f i)) a ∧ ∀ i ∈ l, f i ≤ l.foldl (fun e i => max e (f i)) a := by
  induction l generalizing a with
  | nil => simp
  | cons x l ih =>
    obtain ⟨hstart, hrest⟩ := ih (max a (f x))
    rw [List.foldl_cons]
    refine ⟨by omega, fun i hi => ?_⟩
    rcases List.mem_cons.mp hi with rfl | hi
    · omega
    · exact hrest i hi

theorem foldl_max_attained {α : Type} (f : α → Nat) (l : List α) (a : Nat) :
    l.foldl (fun e i => max e (f i)) a = a ∨ ∃ i ∈ l, l.foldl (fun e i => max e (f i)) a = f i := by
  induction l generalizing a with
  | nil => exact .inl rfl
  | cons x l ih =>
    rw [List.foldl_cons]
    rcases ih (max a (f x)) with h | ⟨i, hi, h⟩
    · rcases Nat.le_total a (f x) with hle | hle
      · exact .inr ⟨x, List.mem_cons_self, by omega⟩
      · exact .inl (by omega)
    · exact .inr ⟨i, List.mem_cons_of_mem x hi, h⟩

/-- The instant at which a group that conflicts with g lets g in: its green-end time plus the intergreen (R82). -/
def State.letsIn (s : State) (g i : GroupId) : Nat := s.seen s.groups[i].greenEnd + cfgIntergreen s.cfg i g

theorem earliestGreen_of_free {s : State} {g : GroupId} (h : ∀ i, s.conflicts i g = false) : s.earliestGreen g = s.stamp := by
  have hnone : groupIds.filter (fun i => s.conflicts i g) = [] := by simp [h]
  rw [State.earliestGreen, hnone]

/-- With a conflicting group the earliest green is the latest of their instants. -/
theorem earliestGreen_of_conflict {s : State} {g i : GroupId} (h : s.conflicts i g = true) :
    s.earliestGreen g = (groupIds.filter (fun i => s.conflicts i g)).foldl (fun e i => max e (s.letsIn g i)) 0 := by
  have hmem : i ∈ groupIds.filter (fun i => s.conflicts i g) := List.mem_filter.mpr ⟨mem_groupIds i, h⟩
  unfold State.earliestGreen
  split
  next hnone => exact absurd (hnone ▸ hmem) List.not_mem_nil
  next => rfl

theorem letsIn_le_earliestGreen {s : State} {g i : GroupId} (h : s.conflicts i g = true) : s.letsIn g i ≤ s.earliestGreen g := by
  rw [earliestGreen_of_conflict h]
  exact (le_foldl_max (s.letsIn g) _ 0).2 i (List.mem_filter.mpr ⟨mem_groupIds i, h⟩)

theorem earliestGreen_attained {s : State} {g i : GroupId} (h : s.conflicts i g = true) :
    ∃ j, s.conflicts j g = true ∧ s.earliestGreen g = s.letsIn g j := by
  have hle := letsIn_le_earliestGreen h
  rw [earliestGreen_of_conflict h] at hle ⊢
  rcases foldl_max_attained (s.letsIn g) (groupIds.filter (fun i => s.conflicts i g)) 0 with hzero | ⟨j, hj, heq⟩
  · exact ⟨i, h, by omega⟩
  · exact ⟨j, (List.mem_filter.mp hj).2, heq⟩

/-! ### One group record -/

/-- A whole-junction request, kind by kind (R81). -/
theorem showAll_shows (s : State) (v p : Aspect) : Shows v p s (s.showAll v p) := by
  intro g
  rw [showAll_getElem]
  generalize s.groups[g] = x
  unfold Group.show
  split
  next hkind => simp [hkind]
  next hkind => simp [hkind, Group.plain, Group.endGreen]
  next hkind => simp [hkind, Group.plain, Group.endGreen]

/-- A request that leaves a group's record as it was leaves the state. -/
theorem setGroup_self (s : State) (g : GroupId) : s.setGroup g s.groups[g] = s := by
  simp [State.setGroup]

theorem Group.terminate_unused {x : Group} (hk : x.kind = .unused) (n : Nat) (a c : Timer) : x.terminate n a c = x := by
  simp only [Group.terminate, hk]

theorem Group.terminate_redAmber {x : Group} (hk : x.kind ≠ .unused) (ha : x.aspect = .redAmber) (n : Nat) (a c : Timer) :
    x.terminate n a c = { x.plain with aspect := .red, timer := none } := by
  unfold Group.terminate
  split <;> simp_all

theorem Group.terminate_red {x : Group} (hk : x.kind ≠ .unused) (ha : x.aspect = .red) (n : Nat) (a c : Timer) :
    x.terminate n a c = x.plain := by
  unfold Group.terminate
  split <;> simp_all

/-- TERMINATE takes the gain request of a group that is leaving green already, or that flashes or is DARK (R79). -/
theorem Group.terminate_dropsGain {x : Group} (hk : x.kind ≠ .unused)
    (ha : x.aspect = .amber ∨ x.aspect = .greenFlash ∨ x.aspect = .flashAmber ∨ x.aspect = .dark) (n : Nat) (a c : Timer) :
    x.terminate n a c = { x with gain := none } := by
  unfold Group.terminate
  split <;> simp_all

theorem Group.returnRed_unused {x : Group} (hk : x.kind = .unused) : x.returnRed = x := by
  simp only [Group.returnRed, hk]

theorem Group.returnRed_redAmber {x : Group} (hk : x.kind ≠ .unused) (ha : x.aspect = .redAmber) :
    x.returnRed = { x.plain with aspect := .red, timer := none } := by
  unfold Group.returnRed
  split <;> simp_all

theorem Group.returnRed_red {x : Group} (hk : x.kind ≠ .unused) (ha : x.aspect = .red) : x.returnRed = x.plain := by
  unfold Group.returnRed
  split <;> simp_all

theorem Group.returnRed_other {x : Group}
    (ha : x.aspect = .amber ∨ x.aspect = .greenFlash ∨ x.aspect = .flashAmber ∨ x.aspect = .dark) : x.returnRed = x := by
  unfold Group.returnRed
  split <;> simp_all

/-- A group in RED with nothing asked of it. -/
theorem Group.plain_of_red {x : Group} (ha : x.aspect = .red) :
    x.plain = { x with aspect := .red, gain := none, withheld := false, withheldSince := none } := by
  rw [← ha]
  rfl

theorem gain_taken {s : State} {g : GroupId} (hk : s.groups[g].kind ≠ .unused)
    (ha : s.groups[g].aspect = .red ∨ s.groups[g].aspect = .redAmber ∨ s.groups[g].aspect = .amber ∨
      s.groups[g].aspect = .greenFlash) :
    s.gain g = s.setGroup g { s.groups[g] with gain := some (s.earliestGreen g) } := by
  unfold State.gain
  split <;> simp_all

theorem gain_ignored {s : State} {g : GroupId}
    (h : s.groups[g].kind = .unused ∨ s.groups[g].aspect = .green ∨ s.groups[g].aspect = .flashAmber ∨
      s.groups[g].aspect = .dark) : s.gain g = s := by
  unfold State.gain
  split <;> simp_all

/-! ### The clearing to red -/

/-- What the clearing to red makes of a group (R70, R118, R164). -/
def Group.clearedToRed (x : Group) (stamp : Nat) (amber clearance : Timer) : Group :=
  match x.aspect with
  | .green => x.terminate stamp amber clearance
  | .greenFlash => x.terminate stamp amber clearance
  | .amber => if x.gain.isSome then x.terminate stamp amber clearance else x
  | .redAmber => x.returnRed
  | .red => if x.withheld || x.gain.isSome then x.returnRed else x
  | .flashAmber => x
  | .dark => x

/-- Each step of the clearing replaces one group's record. -/
theorem clearToRed_eq_foldl (s : State) :
    s.clearToRed = groupIds.foldl (fun t g => t.setGroup g
      (t.groups[g].clearedToRed t.stamp (t.loadTimer (cfgAmber t.cfg g)) (t.loadTimer (cfgClearance t.cfg g)))) s := by
  unfold State.clearToRed
  congr 1
  funext t g
  unfold Group.clearedToRed
  dsimp only
  have hself := setGroup_self t g
  cases t.groups[g].aspect with
  | green | greenFlash | redAmber => rfl
  | amber | red =>
    dsimp only
    split
    · rfl
    · exact hself.symm
  | flashAmber | dark => exact hself.symm

theorem clearedToRed_keeps (x : Group) (n : Nat) (a c : Timer) :
    (x.clearedToRed n a c).kind = x.kind ∧ (x.clearedToRed n a c).redStatus = x.redStatus ∧
      (x.clearedToRed n a c).evidence = x.evidence := by
  have hterminate := Group.terminate_keeps x n a c
  have hreturn := Group.returnRed_keeps x
  unfold Group.clearedToRed
  split
  · exact hterminate
  · exact hterminate
  · split
    · exact hterminate
    · exact ⟨rfl, rfl, rfl⟩
  · exact hreturn
  · split
    · exact hreturn
    · exact ⟨rfl, rfl, rfl⟩
  · exact ⟨rfl, rfl, rfl⟩
  · exact ⟨rfl, rfl, rfl⟩

/-- The clearing to red, group by group: each is cleared once, from its own record alone. -/
theorem clearToRed_getElem (s : State) (g : GroupId) :
    s.clearToRed.groups[g] =
      s.groups[g].clearedToRed s.stamp (s.loadTimer (cfgAmber s.cfg g)) (s.loadTimer (cfgClearance s.cfg g)) := by
  rw [clearToRed_eq_foldl, foldl_once (fun t i => t.groups[i])
    (fun i x => x.clearedToRed s.stamp (s.loadTimer (cfgAmber s.cfg i)) (s.loadTimer (cfgClearance s.cfg i))) (GroupsOnly s)
    (fun t i ht => ?keeps) (fun t i j ht => ?step) groupIds_nodup (.refl s), if_pos (mem_groupIds g)]
  case keeps =>
    obtain ⟨hkind, hred, hevidence⟩ := clearedToRed_keeps t.groups[i] t.stamp (t.loadTimer (cfgAmber t.cfg i))
      (t.loadTimer (cfgClearance t.cfg i))
    exact ht.trans (setGroup_groupsOnly t i _ hkind hred hevidence)
  case step =>
    have hstamp : t.stamp = s.stamp := by rw [ht.same]; rfl
    have hcfg : t.cfg = s.cfg := by rw [ht.same]; rfl
    simp only [getElem_setGroup, State.loadTimer, hstamp, hcfg]

/-- In AMBER without a gain request TERMINATE has nothing to take. -/
theorem Group.terminate_amber {x : Group} (ha : x.aspect = .amber) (hg : x.gain = none) (n : Nat) (a c : Timer) :
    x.terminate n a c = x := by
  by_cases hk : x.kind = .unused
  · exact Group.terminate_unused hk n a c
  · rw [Group.terminate_dropsGain hk (.inl ha), ← hg]

/-- Settles O45, request by request from the lemmas above. -/
theorem aspectRequests : Obligations.AspectRequests := by
  intro s g
  dsimp only
  have hreplaced (x y : Group) (h : x = y) : s.setGroup g x = { s with groups := s.groups.set g.val y } := by rw [h]; rfl
  refine ⟨fun hk ha => hreplaced _ _ ?_, fun hk ha => hreplaced _ _ ?_, fun hk ha => ⟨hreplaced _ _ ?_, hreplaced _ _ ?_⟩,
    fun hk ha => ⟨hreplaced _ _ ?_, hreplaced _ _ ?_⟩, fun hk ha => ⟨hreplaced _ _ ?_, ?_⟩, fun ha => gain_ignored (.inr (.inl ha)),
    fun hk ha => gain_taken hk ha, fun ha => gain_ignored (.inr (.inr ha)), fun hk => ⟨?_, ?_, gain_ignored (.inl hk)⟩,
    earliestGreen_of_free, fun i => letsIn_le_earliestGreen, fun i => earliestGreen_attained, showAll_shows s _ _, showAll_shows s _ _,
    showAll_shows s _ _, ?_, (clearToRed_groupsOnly s).same⟩
  · simp only [Group.terminate, hk, ha]
  · simp only [Group.terminate, hk, ha]
  · exact Group.terminate_redAmber hk ha _ _ _
  · exact Group.returnRed_redAmber hk ha
  · exact (Group.terminate_red hk ha _ _ _).trans (Group.plain_of_red ha)
  · exact (Group.returnRed_red hk ha).trans (Group.plain_of_red ha)
  · exact Group.terminate_dropsGain hk ha _ _ _
  · rw [State.returnRed, Group.returnRed_other ha, setGroup_self]
  · rw [State.terminate, Group.terminate_unused hk, setGroup_self]
  · rw [State.returnRed, Group.returnRed_unused hk, setGroup_self]
  · rw [clearToRed_getElem]
    simp only [Group.clearedToRed, State.terminate, State.returnRed, getElem_setGroup, ↓reduceIte]
    cases ha : s.groups[g].aspect with
    | green | greenFlash | redAmber | flashAmber | dark => rfl
    | amber =>
      dsimp only
      split
      · rfl
      next hgain => rw [Group.terminate_amber ha (by simpa using hgain)]
    | red =>
      simp only [Bool.or_eq_true, Option.isSome_iff_ne_none]

end Sys2Proof.Machine
end

section
/-! PROOFS. What the outputs become when the targets are applied, and what keeps them (R94). -/

namespace Sys2Proof.Machine

-- One declaration at a time, as in the tests: declarations that wait for one another each hold a thread with its stack.
set_option Elab.async false

open Sys2Proof.Safety

/-! ### Targets -/

/-- Command and target of a circuit follow from the configuration, the groups, the lockout, DRIVE_EN and the flash phase. -/
theorem target_congr {s t : State} {n : CircuitId} (cfg : t.mgmt.active = s.mgmt.active) (groups : t.groups = s.groups)
    (lockout : t.drive.records[n].lockout = s.drive.records[n].lockout) (driveEn : t.drive.driveEn = s.drive.driveEn)
    (flashOn : t.drive.flashOn = s.drive.flashOn) : t.target n = s.target n := by
  simp only [State.target, State.commanded, State.cfg, cfg, groups, lockout, driveEn, flashOn]

theorem target_of_driveOff {s : State} (h : s.drive.driveEn = false) (n : CircuitId) : s.target n = false := by
  rw [State.target, h, Bool.false_and]

/-- The drive record of a circuit whose target is applied at a count: switched, or as it stands (R94). -/
def DriveRecord.toward (r : DriveRecord) (on : Bool) (count : Word) : DriveRecord :=
  if r.applied = on then r else { r with applied := on, changedAt := count, before := none }

theorem toward_applied (r : DriveRecord) (on : Bool) (count : Word) : (r.toward on count).applied = on := by
  unfold DriveRecord.toward
  split
  · assumption
  · rfl

theorem toward_changedAt (r : DriveRecord) (on : Bool) (count : Word) :
    (r.toward on count).changedAt = if r.applied = on then r.changedAt else count := by
  unfold DriveRecord.toward
  split <;> rfl

theorem toward_lockout (r : DriveRecord) (on : Bool) (count : Word) : (r.toward on count).lockout = r.lockout := by
  unfold DriveRecord.toward
  split <;> rfl

/-! ### One switch -/

/-- A read of a drive record after a write. -/
theorem getElem_setDrive (s : State) (n m : CircuitId) (r : DriveRecord) :
    (s.setDrive n r).drive.records[m] = if n = m then r else s.drive.records[m] := by
  simp only [State.setDrive, Fin.getElem_fin, Vector.getElem_set, Fin.ext_iff]

theorem switch_record (s : State) (n m : CircuitId) (on : Bool) :
    (s.switch n on).drive.records[m] =
      if n = m then { s.drive.records[n] with applied := on, changedAt := s.drive.halfCycles, before := none }
      else s.drive.records[m] := by
  unfold State.switch
  dsimp only
  split
  all_goals exact getElem_setDrive s n m _

/-- Only the lamp side's records and the scanner differ. -/
def SwitchesOnly (s t : State) : Prop := t = { s with drive := t.drive, cable := t.cable, scanner := t.scanner }

theorem SwitchesOnly.trans {s t u : State} (h : SwitchesOnly s t) (k : SwitchesOnly t u) : SwitchesOnly s u := by
  unfold SwitchesOnly at *
  rw [k, h]

theorem SwitchesOnly.groups {s t : State} (h : SwitchesOnly s t) : t.groups = s.groups := by rw [h]

theorem SwitchesOnly.circuits {s t : State} (h : SwitchesOnly s t) : t.circuits = s.circuits := by rw [h]

theorem SwitchesOnly.seq {s t : State} (h : SwitchesOnly s t) : t.seq = s.seq := by rw [h]

theorem SwitchesOnly.fallback {s t : State} (h : SwitchesOnly s t) : t.fallback = s.fallback := by rw [h]

theorem SwitchesOnly.mgmt {s t : State} (h : SwitchesOnly s t) : t.mgmt = s.mgmt := by rw [h]

theorem switch_only (s : State) (n : CircuitId) (on : Bool) : SwitchesOnly s (s.switch n on) := by
  unfold State.switch
  dsimp only
  split
  all_goals rfl

/-- The switch of a circuit whose applied state differs from its target, among the changes of `applyTargets` (R94). -/
def State.switchDue (s : State) (n : CircuitId) : State :=
  if s.drive.records[n].applied = s.target n then s else s.switch n (s.target n)

theorem applyTargets_eq (s : State) : s.applyTargets = (circuitIds.foldl State.switchDue s).refreshEvidence := rfl

theorem switchDue_record (s : State) (n m : CircuitId) :
    (s.switchDue n).drive.records[m] =
      if n = m then s.drive.records[n].toward (s.target n) s.drive.halfCycles else s.drive.records[m] := by
  unfold State.switchDue DriveRecord.toward
  split
  next => split <;> simp_all
  next => exact switch_record s n m _

theorem switchDue_lamp (s : State) (n : CircuitId) : Lamp s (s.switchDue n) := by
  unfold State.switchDue
  split
  · exact .refl s
  · exact switch_lamp s n _

theorem switchDue_only (s : State) (n : CircuitId) : SwitchesOnly s (s.switchDue n) := by
  unfold State.switchDue
  split
  · rfl
  · exact switch_only s n _

/-- A switch changes no target: neither its own nor another's. -/
theorem switchDue_target (s : State) (n m : CircuitId) : (s.switchDue n).target m = s.target m := by
  have hlamp := switchDue_lamp s n
  refine target_congr (by rw [hlamp.mgmt]) (switchDue_only s n).groups ?_ hlamp.driveEn hlamp.flashOn
  rw [switchDue_record]
  split
  next heq => rw [toward_lockout, heq]
  next => rfl

/-! ### Every switch -/

theorem circuitIds_nodup : circuitIds.Nodup := by decide

/-- Every circuit is brought to its target at the present half-cycle count (R94). -/
theorem foldl_switchDue_record (s : State) (n : CircuitId) :
    (circuitIds.foldl State.switchDue s).drive.records[n] =
      s.drive.records[n].toward (s.target n) s.drive.halfCycles := by
  rw [foldl_once (fun t m => t.drive.records[m]) (fun m r => r.toward (s.target m) s.drive.halfCycles)
      (fun t => (∀ m, t.target m = s.target m) ∧ t.drive.halfCycles = s.drive.halfCycles)
      (fun t m ⟨htarget, hcount⟩ =>
        ⟨fun i => (switchDue_target t m i).trans (htarget i), (switchDue_lamp t m).halfCycles.trans hcount⟩)
      (fun t m i ⟨htarget, hcount⟩ => by rw [switchDue_record, htarget, hcount]) circuitIds_nodup ⟨fun _ => rfl, rfl⟩,
    if_pos (mem_circuitIds n)]

theorem foldl_switchDue_only (s : State) : SwitchesOnly s (circuitIds.foldl State.switchDue s) :=
  foldl_keeps (SwitchesOnly s) _ (fun t n ht => ht.trans (switchDue_only t n)) _ s rfl

theorem applyTargets_record (s : State) (n : CircuitId) :
    s.applyTargets.drive.records[n] = s.drive.records[n].toward (s.target n) s.drive.halfCycles := by
  rw [applyTargets_eq, (refreshEvidence_control _).drive, foldl_switchDue_record]

theorem applyTargets_circuits (s : State) : s.applyTargets.circuits = s.circuits := by
  rw [applyTargets_eq, (refreshEvidence_control _).circuits]
  exact (foldl_switchDue_only s).circuits

/-! ### The scanner's counts -/

/-- The blanked sets and the instant of the last mark stay as they are. -/
def MarksKept (s t : State) : Prop := t.scanner.blankSets = s.scanner.blankSets ∧ t.scanner.lastMark = s.scanner.lastMark

theorem MarksKept.of_scanner {s t : State} (h : t.scanner = s.scanner) : MarksKept s t := by
  rw [MarksKept, h]
  exact ⟨rfl, rfl⟩

theorem MarksKept.trans {s t u : State} (h : MarksKept s t) (k : MarksKept t u) : MarksKept s u :=
  ⟨k.1.trans h.1, k.2.trans h.2⟩

/-- The end of a leakage test leaves the marks (R151). -/
theorem cancelLeak_marks (s : State) (n : CircuitId) : MarksKept s { s with scanner := s.scanner.cancelLeak n } := by
  unfold MarksKept Scanner.cancelLeak
  dsimp only
  split
  · split <;> exact ⟨rfl, rfl⟩
  · exact ⟨rfl, rfl⟩

theorem switch_marks (s : State) (n : CircuitId) (on : Bool) : MarksKept s (s.switch n on) := by
  unfold State.switch
  dsimp only
  split
  · exact MarksKept.trans (.of_scanner rfl) (cancelLeak_marks _ n)
  · exact .of_scanner rfl

theorem applyTargets_marks (s : State) : MarksKept s s.applyTargets := by
  rw [applyTargets_eq]
  refine .trans (foldl_keeps (MarksKept s) _ (fun t n ht => ?_) _ s (.of_scanner rfl))
    (.of_scanner (refreshEvidence_control _).scanner)
  unfold State.switchDue
  split
  · exact ht
  · exact ht.trans (switch_marks t n _)

end Sys2Proof.Machine
end

section
/-! PROOFS. The half-cycle mark: the targets applied, the readings classified, what settling leaves of them (R92, R94, R123 to R129). -/

namespace Sys2Proof.Machine

-- One declaration at a time, as in the tests: declarations that wait for one another each hold a thread with its stack.
set_option Elab.async false

open Sys2Proof.Safety

/-! ### What keeps the outputs and the last currents -/

/-- Every output stands as it did since the same count, and the scanner counts as it did. -/
structure OutputsKept (s t : State) : Prop where
  applied : ∀ n : CircuitId, t.drive.records[n].applied = s.drive.records[n].applied
  changedAt : ∀ n : CircuitId, t.drive.records[n].changedAt = s.drive.records[n].changedAt
  marks : MarksKept s t

/-- Besides, every last current stays. -/
structure LampsKept (s t : State) : Prop extends OutputsKept s t where
  lastCurrent : ∀ n : CircuitId, t.circuits[n].lastCurrent = s.circuits[n].lastCurrent

theorem OutputsKept.trans {s t u : State} (h : OutputsKept s t) (k : OutputsKept t u) : OutputsKept s u :=
  ⟨fun n => (k.applied n).trans (h.applied n), fun n => (k.changedAt n).trans (h.changedAt n), h.marks.trans k.marks⟩

theorem LampsKept.trans {s t u : State} (h : LampsKept s t) (k : LampsKept t u) : LampsKept s u :=
  ⟨h.toOutputsKept.trans k.toOutputsKept, fun n => (k.lastCurrent n).trans (h.lastCurrent n)⟩

/-- An operation that leaves the drive records, the scanner and the circuits alone. -/
theorem LampsKept.of_same {s t : State} (records : t.drive.records = s.drive.records := by rfl)
    (scanner : t.scanner = s.scanner := by rfl) (circuits : t.circuits = s.circuits := by rfl) : LampsKept s t :=
  ⟨⟨fun n => by rw [records], fun n => by rw [records], .of_scanner scanner⟩, fun n => by rw [circuits]⟩

theorem LampsKept.refl (s : State) : LampsKept s s := .of_same

theorem Control.lamps {s t : State} (h : Control s t) : LampsKept s t := .of_same (by rw [h.drive]) h.scanner h.circuits

theorem foldl_lamps {α : Type} (f : State → α → State) (h : ∀ s a, LampsKept s (f s a)) (l : List α) (s : State) :
    LampsKept s (l.foldl f s) :=
  foldl_keeps (LampsKept s) f (fun t a ht => ht.trans (h t a)) l s (.refl s)

/-- A read of a last current after a write of a circuit record. -/
theorem setCircuit_lastCurrent (s : State) (n m : CircuitId) (r : ProvingRecord) :
    (s.setCircuit n r).circuits[m].lastCurrent = if n = m then r.lastCurrent else s.circuits[m].lastCurrent := by
  simp only [State.setCircuit, Fin.getElem_fin, Vector.getElem_set, Fin.val_inj]
  split <;> rfl

/-- A circuit record with the same last current. -/
theorem setCircuit_lamps (s : State) (n : CircuitId) (r : ProvingRecord) (h : r.lastCurrent = s.circuits[n].lastCurrent) :
    LampsKept s (s.setCircuit n r) where
  applied _ := rfl
  changedAt _ := rfl
  marks := .of_scanner rfl
  lastCurrent m := by
    rw [setCircuit_lastCurrent]
    split
    next heq => rw [h, heq]
    next => rfl

/-- A drive record that differs in its lockout alone. -/
theorem setLockout_lamps (s : State) (n : CircuitId) (v : Bool) :
    LampsKept s (s.setDrive n { s.drive.records[n] with lockout := v }) where
  applied m := by
    rw [getElem_setDrive]
    split
    next heq => rw [← heq]
    next => rfl
  changedAt m := by
    rw [getElem_setDrive]
    split
    next heq => rw [← heq]
    next => rfl
  marks := .of_scanner rfl
  lastCurrent _ := rfl

/-! ### Readings -/

theorem belowHigh_lastCurrent (r : ProvingRecord) : r.belowHigh.1.lastCurrent = r.lastCurrent := by
  unfold ProvingRecord.belowHigh
  split
  · rfl
  · split <;> rfl

theorem failReading_lastCurrent (r : ProvingRecord) : r.failReading.1.lastCurrent = r.lastCurrent := by
  unfold ProvingRecord.failReading
  dsimp only
  split
  · split <;> rfl
  · rfl

theorem dimReading_lastCurrent (r : ProvingRecord) : r.dimReading.1.lastCurrent = r.lastCurrent := by
  unfold ProvingRecord.dimReading
  dsimp only
  split
  · split <;> rfl
  · rfl

theorem goodReading_lastCurrent (r : ProvingRecord) (a : Bool) : (r.goodReading a).1.lastCurrent = r.lastCurrent := by
  unfold ProvingRecord.goodReading
  dsimp only
  split
  iterate 3 split <;> rfl
  all_goals rfl

theorem highReading_lastCurrent (r : ProvingRecord) : r.highReading.1.lastCurrent = r.lastCurrent := by
  unfold ProvingRecord.highReading
  dsimp only
  split
  · rfl
  · split <;> rfl

/-- No class of reading changes the last current, which has been recorded before (R128). -/
theorem classified_lastCurrent (r : ProvingRecord) (k : ReadingClass) (a : Bool) :
    (r.classified k a).1.lastCurrent = r.lastCurrent := by
  cases k with
  | critical => rfl
  | high => exact highReading_lastCurrent r
  | fail => exact (failReading_lastCurrent _).trans (belowHigh_lastCurrent r)
  | dim => exact (dimReading_lastCurrent _).trans (belowHigh_lastCurrent r)
  | good => exact (goodReading_lastCurrent _ a).trans (belowHigh_lastCurrent r)

theorem alarmEvents_refreshRed_lamps (s : State) (n : Byte) (l : List AlarmEvent) : LampsKept s (s.alarmEvents n l).refreshRed :=
  ((alarmEvents_control s n l).trans (refreshRed_control _)).lamps

/-- A CURRENT reading is recorded, and what it is classified as leaves the outputs and every last current (R128, R129). -/
theorem currentReading_lamps (s : State) (n : CircuitId) (v : Nat) :
    LampsKept (s.setCircuit n { s.circuits[n] with lastCurrent := v }) (s.currentReading n v) := by
  unfold State.currentReading
  dsimp only
  split
  · have hset : LampsKept (s.setCircuit n { s.circuits[n] with lastCurrent := v }) (s.setCircuit n
        (ProvingRecord.classified { s.circuits[n] with lastCurrent := v } (classOf s.cfg n v) (cfgAutoRecover s.cfg n)).1) :=
      ⟨⟨fun _ => rfl, fun _ => rfl, .of_scanner rfl⟩, fun m => by
        rw [setCircuit_lastCurrent, setCircuit_lastCurrent, classified_lastCurrent]⟩
    split
    · exact (hset.trans (setLockout_lamps _ n true)).trans (alarmEvents_refreshRed_lamps _ _ _)
    · exact hset.trans (alarmEvents_refreshRed_lamps _ _ _)
  · exact .refl _

theorem coreBroken_lamps (s : State) (n : CircuitId) : LampsKept s (s.coreBroken n) := by
  unfold State.coreBroken
  split
  · exact .refl s
  · exact .refl s
  all_goals
    refine .trans ?_ (alarmEvents_refreshRed_lamps _ _ _)
    exact setCircuit_lamps s n _ rfl

theorem coreMended_lamps (s : State) (n : CircuitId) : LampsKept s (s.coreMended n) := by
  unfold State.coreMended
  split
  · refine .trans ?_ (refreshRed_control _).lamps
    exact setCircuit_lamps s n _ rfl
  all_goals exact .refl s

theorem moveCore_lamps (s : State) (n : CircuitId) (r : CoreRecord) : LampsKept s (s.moveCore n r) :=
  moveCore_keeps (LampsKept s) .of_same (fun t h => h.trans ⟨⟨fun _ => rfl, fun _ => rfl, cancelLeak_marks t n⟩, fun _ => rfl⟩)
    (fun t l h => h.trans (alarmEvents_control t _ l).lamps) (fun t h => h.trans (coreBroken_lamps t n))
    (fun t h => h.trans (coreMended_lamps t n)) (fun t h => h.trans (refreshEvidence_control t).lamps)

theorem voltageReading_lamps (s : State) (n : CircuitId) (v : Nat) : LampsKept s (s.voltageReading n v) := by
  unfold State.voltageReading
  split
  · exact moveCore_lamps s n _
  · exact .refl s

/-! ### A sample set -/

/-- The CURRENT readings of a set leave the outputs; each circuit read takes its reading as its last current (R128). -/
theorem foldl_currentReading (p : CircuitId → Bool) (v : CircuitId → Nat) (s : State) :
    let t := circuitIds.foldl (fun (t : State) n => if p n then t.currentReading n (v n) else t) s
    OutputsKept s t ∧ ∀ n : CircuitId, t.circuits[n].lastCurrent = if p n then v n else s.circuits[n].lastCurrent := by
  dsimp only
  have hread (t : State) (n : CircuitId) : OutputsKept t (if p n then t.currentReading n (v n) else t) := by
    split
    · exact OutputsKept.trans (t := t.setCircuit n { t.circuits[n] with lastCurrent := v n })
        ⟨fun _ => rfl, fun _ => rfl, .of_scanner rfl⟩ (currentReading_lamps t n _).toOutputsKept
    · exact (LampsKept.refl t).toOutputsKept
  refine ⟨foldl_keeps (OutputsKept s) _ (fun t n ht => ht.trans (hread t n)) _ s (LampsKept.refl s).toOutputsKept, fun n => ?_⟩
  refine (foldl_once (fun (t : State) m => t.circuits[m].lastCurrent) (fun m c => if p m then v m else c) (fun _ => True)
    (fun _ _ h => h) (fun t m i _ => ?_) circuitIds_nodup trivial n).trans (if_pos (mem_circuitIds n))
  by_cases hp : p m = true
  · rw [if_pos hp, if_pos hp, (currentReading_lamps t m _).lastCurrent, setCircuit_lastCurrent]
  · rw [if_neg hp, if_neg hp]
    split
    next heq => rw [heq]
    next => rfl

/-- The VOLTAGE readings leave the outputs and the last currents. -/
theorem foldl_voltageReading_lamps (p : CircuitId → Bool) (v : CircuitId → Nat) (s : State) :
    LampsKept s (circuitIds.foldl (fun (t : State) n => if p n then t.voltageReading n (v n) else t) s) := by
  refine foldl_lamps _ (fun t n => ?_) _ s
  split
  · exact voltageReading_lamps t n _
  · exact .refl t

/-! ### Settling with mains present -/

theorem completeStage_lamps (s : State) : LampsKept s s.completeStage := by
  unfold State.completeStage
  split
  · split
    · unfold State.minStart
      split
      · exact .refl s
      · exact .of_same
    · exact .refl s
  · exact .refl s

theorem runFailRed_lamps (s : State) : LampsKept s s.runFailRed := by
  unfold State.runFailRed
  split
  · split
    · exact .of_same
    · exact .refl s
  · exact .refl s
  · exact .refl s

/-- The circuits are set afresh at the swap but for their last currents; the lockouts go (R69). -/
theorem swapCircuits_lamps (s : State) : LampsKept s s.swapCircuits := by
  have hclears := foldl_alarmEvents_control (fun n => s.circuits[n].cleared.2) circuitIds s
  unfold State.swapCircuits
  dsimp only
  generalize circuitIds.foldl _ s = t at hclears ⊢
  refine hclears.lamps.trans ⟨⟨fun n => ?_, fun n => ?_, .of_scanner rfl⟩, fun n => ?_⟩
  · simp
  · simp
  · simp [ProvingRecord.fresh]

theorem swapCores_lamps (s : State) : LampsKept s s.swapCores := by
  have hclears := foldl_alarmEvents_control (fun n => s.cable.cores[n].state.alarm.toList.map (fun a => (false, a))) circuitIds s
  unfold State.swapCores
  dsimp only
  generalize circuitIds.foldl _ s = t at hclears ⊢
  exact hclears.lamps.trans ⟨⟨fun _ => rfl, fun _ => rfl, rfl, rfl⟩, fun _ => rfl⟩

theorem swapMode_lamps (s : State) : LampsKept s s.swapMode := by
  unfold State.swapMode
  split
  iterate 3 exact (enterStart_control s _).lamps
  · exact .of_same
  · exact .of_same
  · split
    · exact (enterStart_control s _).lamps
    · split
      · exact ((shift_control s _ _).trans (showAll_groupsOnly _ _ _).control).lamps
      · exact .of_same

/-- The swap leaves how the outputs stand, the last currents and the counts of the scanner (R69). -/
theorem swap_lamps (s : State) : LampsKept s s.swap := by
  have htables : LampsKept s s.swapTables := .of_same
  have hrecords := (htables.trans (swapCircuits_lamps _)).trans (swapCores_lamps _)
  have hcleared := (hrecords.trans (refreshRed_control _).lamps).trans (clear_control _ .configEmpty 255).lamps
  have hmode := hcleared.trans (swapMode_lamps _)
  have hevidence (t : State) : LampsKept t t.swapEvidence := .of_same
  exact (hmode.trans (hevidence _)).trans (foldl_lamps _ (fun t p => (conflictDetected_control t [p]).lamps) _ _)

theorem activate_lamps (s : State) : LampsKept s s.activate := by
  unfold State.activate
  split
  · exact .refl s
  · split
    iterate 3 exact swap_lamps s
    all_goals
      split
      · exact swap_lamps s
      · exact .refl s

theorem settleOnce_lamps {s : State} (h : s.scanner.mains = .present) : LampsKept s s.settleOnce := by
  have hmains : s.completeStage.runFailRed.activate.scanner.mains = .present :=
    (((completeStage_settled s).trans (runFailRed_settled _)).trans (activate_settled _)).mains.trans h
  rw [State.settleOnce, applyLost_eq_self _ hmains]
  exact ((completeStage_lamps s).trans (runFailRed_lamps _)).trans (activate_lamps _)

/-- With mains present, what follows at the instant switches no output (R94). -/
theorem settle_lamps {s : State} (h : s.scanner.mains = .present) : LampsKept s s.settle := by
  have hone := (settleOnce_settled s).mains.trans h
  have htwo := (settleOnce_settled s.settleOnce).mains.trans hone
  exact ((settleOnce_lamps h).trans (settleOnce_lamps hone)).trans (settleOnce_lamps htwo)

/-! ### The mark -/

/-- A mark while mains is PRESENT is counted (R92). -/
def State.counted (s : State) : State :=
  { s with
    drive := { s.drive with halfCycles := s.drive.halfCycles + 1 }
    scanner := { s.scanner with lastMark := s.now } }

/-- The mark that ends a loss of mains: two sets will be blanked (R125, R126). -/
def State.returned (s : State) : State := { s.counted with scanner := { s.counted.scanner with mains := .present, blankSets := 2 } }

theorem countMark_of_present {s : State} (h : s.scanner.mains = .present) : s.countMark = s.counted := by
  unfold State.countMark
  dsimp only
  split
  next => rfl
  next hlost => exact absurd (h.symm.trans hlost) (by decide)

theorem countMark_of_lost {s : State} (h : s.scanner.mains = .lost) :
    s.countMark = s.returned.takeBack.clear .mainsLost 255 := by
  unfold State.countMark
  dsimp only
  split
  next hpresent => exact absurd (h.symm.trans hpresent) (by decide)
  next => rfl

theorem takeBack_driveRest (s : State) : s.takeBack.drive = { s.drive with records := s.takeBack.drive.records } := by
  unfold State.takeBack
  rfl

/-- A circuit's record when a mark has been counted: after a loss of mains without what was switched at this very instant (R126). -/
theorem countMark_record (s : State) (n : CircuitId) :
    s.countMark.drive.records[n] =
      if s.scanner.mains = .lost then s.drive.records[n].takenBack s.now else s.drive.records[n] := by
  cases hmains : s.scanner.mains with
  | present =>
    rw [countMark_of_present hmains, if_neg (by decide)]
    rfl
  | lost =>
    rw [countMark_of_lost hmains, if_pos rfl, clear_drive, takeBack_record]
    rfl

/-- The count, the scanner and the last currents when a mark has been counted (R92, R125, R126). -/
theorem countMark_counts (s : State) :
    s.countMark.drive.halfCycles = s.drive.halfCycles + 1 ∧ s.countMark.scanner.lastMark = s.now ∧
      s.countMark.scanner.mains = .present ∧
      s.countMark.scanner.blankSets = (if s.scanner.mains = .lost then 2 else s.scanner.blankSets) ∧
      s.countMark.circuits = s.circuits := by
  cases hmains : s.scanner.mains with
  | present =>
    rw [countMark_of_present hmains, if_neg (by decide)]
    exact ⟨rfl, rfl, hmains, rfl, rfl⟩
  | lost =>
    rw [countMark_of_lost hmains, if_pos rfl, clear_drive, clear_scanner, clear_circuits, takeBack_scanner, takeBack_circuits,
      takeBack_driveRest]
    exact ⟨rfl, rfl, rfl, rfl, rfl⟩

/-- A mark changes no target. -/
theorem countMark_target (s : State) (n : CircuitId) : s.countMark.target n = s.target n := by
  have hlockout : s.countMark.drive.records[n].lockout = s.drive.records[n].lockout := by
    rw [countMark_record]
    split
    · exact takenBack_lockout _ _
    · rfl
  cases hmains : s.scanner.mains with
  | present =>
    rw [countMark_of_present hmains] at hlockout ⊢
    exact target_congr rfl rfl hlockout rfl rfl
  | lost =>
    rw [countMark_of_lost hmains] at hlockout ⊢
    refine target_congr ?_ ?_ hlockout ?_ ?_
    · rw [clear_mgmt, takeBack_mgmt]
      rfl
    · rw [clear_groups, takeBack_groups]
      rfl
    · rw [clear_drive, takeBack_driveRest]
      rfl
    · rw [clear_drive, takeBack_driveRest]
      rfl

end Sys2Proof.Machine
end

section
/-! PROOFS. The half-cycle mark put together: counted, applied, read, then settled (R92, R94, R123 to R129). -/

namespace Sys2Proof.Machine

-- One declaration at a time, as in the tests: declarations that wait for one another each hold a thread with its stack.
set_option Elab.async false

open Sys2Proof.Safety

/-! ### Commands and readings -/

/-- The table of R91. -/
theorem lampCommand_eq (x : Aspect) (a : LampAspect) :
    lampCommand x a = match x with
      | .red => if a = .red then .on else .off
      | .redAmber => if a = .green then .off else .on
      | .green => if a = .green then .on else .off
      | .amber => if a = .amber then .on else .off
      | .greenFlash => if a = .green then .flash else .off
      | .flashAmber => if a = .amber then .flash else .off
      | .dark => .off := by
  cases x with
  | red | redAmber | green | amber | greenFlash | flashAmber | dark => cases a <;> rfl

theorem classifies_iff (p : ProvingState) : p.classifies = true ↔ p = .unproven ∨ p = .proven ∨ p = .dim ∨ p = .failed := by
  cases p <;> decide

/-- A reading is not blanked: no set is, and its mark is more than two after the change (R124, R126). -/
theorem setBlanked_eq_false (s : State) (r : DriveRecord) :
    s.setBlanked r = false ↔ s.scanner.blankSets = 0 ∧ s.drive.halfCycles - r.changedAt ≠ 0 ∧
      s.drive.halfCycles - r.changedAt ≠ 1 ∧ s.drive.halfCycles - r.changedAt ≠ 2 := by
  simp [State.setBlanked, blanked, and_assoc]

/-- A sample set, told which readings are not blanked (R123). -/
theorem sampleSet_eq (s : State) (records : Vector DriveRecord 24) (values : Vector Nat 24) (delivered : CircuitId → Bool)
    (h : ∀ n : CircuitId, delivered n = !s.setBlanked records[n]) :
    s.sampleSet records values =
      circuitIds.foldl (fun u n => if !records[n].applied && delivered n then u.voltageReading n (min 400 values[n]) else u)
        (circuitIds.foldl (fun u n => if records[n].applied && delivered n then u.currentReading n (min 4095 values[n]) else u) s) := by
  simp only [State.sampleSet, h]

/-! ### The mark before settling -/

/-- The mark counted, the targets applied, the set classified and its blanking counted down. -/
def State.marked (s : State) (values : Vector Nat 24) : State :=
  (s.countMark.applyTargets.sampleSet s.drive.records values).unblank

theorem exec_halfCycleMark {s : State} (h : s.phase = .notInReset) (dt : Nat) (values : Vector Nat 24) :
    exec (.halfCycleMark dt values) s = .next ((elapse dt s).marked values).settle :=
  live_next dt (fun u => (u.marked values).settle) s h

/-- The targets applied at the mark are those before it. -/
theorem applied_record (s : State) (n : CircuitId) :
    s.countMark.applyTargets.drive.records[n] = s.countMark.drive.records[n].toward (s.target n) (s.drive.halfCycles + 1) := by
  obtain ⟨hcount, -⟩ := countMark_counts s
  rw [applyTargets_record, countMark_target, hcount]

/-- The set leaves the outputs as the mark has applied them; each circuit that was applied ON takes its reading unless it is
blanked. -/
theorem sampleSet_lamps (s : State) (records : Vector DriveRecord 24) (values : Vector Nat 24) :
    OutputsKept s (s.sampleSet records values) ∧ ∀ n : CircuitId, (s.sampleSet records values).circuits[n].lastCurrent =
      if records[n].applied && !s.setBlanked records[n] then min 4095 values[n] else s.circuits[n].lastCurrent := by
  rw [sampleSet_eq s records values _ (fun _ => rfl)]
  obtain ⟨houtputs, hcurrents⟩ := foldl_currentReading (fun n => records[n].applied && !s.setBlanked records[n])
    (fun n => min 4095 values[n]) s
  have hvoltage := foldl_voltageReading_lamps (fun n => !records[n].applied && !s.setBlanked records[n])
    (fun n => min 400 values[n]) (circuitIds.foldl
      (fun u n => if records[n].applied && !s.setBlanked records[n] then u.currentReading n (min 4095 values[n]) else u) s)
  exact ⟨houtputs.trans hvoltage.toOutputsKept, fun n => (hvoltage.lastCurrent n).trans (hcurrents n)⟩

/-- What the marked state shows of the counts. -/
theorem marked_counts (s : State) (values : Vector Nat 24) :
    (s.marked values).drive.halfCycles = s.drive.halfCycles + 1 ∧ (s.marked values).scanner.lastMark = s.now ∧
      (s.marked values).scanner.mains = .present := by
  obtain ⟨hcount, hmark, hmains, -, -⟩ := countMark_counts s
  have hlamp := (applyTargets_lamp s.countMark).trans (sampleSet_lamp _ s.drive.records values)
  have hmarks := (applyTargets_marks s.countMark).trans (sampleSet_lamps _ s.drive.records values).1.marks
  exact ⟨hlamp.halfCycles.trans hcount, hmarks.2.trans hmark, hlamp.mains.trans hmains⟩

theorem marked_record (s : State) (values : Vector Nat 24) (n : CircuitId) :
    let d := s.countMark.drive.records[n].toward (s.target n) (s.drive.halfCycles + 1)
    (s.marked values).drive.records[n].applied = d.applied ∧ (s.marked values).drive.records[n].changedAt = d.changedAt := by
  obtain ⟨houtputs, -⟩ := sampleSet_lamps s.countMark.applyTargets s.drive.records values
  exact ⟨(houtputs.applied n).trans (by rw [applied_record]), (houtputs.changedAt n).trans (by rw [applied_record])⟩

/-- The blanking that holds for the set of this mark (R124, R126). -/
theorem applied_setBlanked (s : State) (r : DriveRecord) :
    s.countMark.applyTargets.setBlanked r = false ↔ (if s.scanner.mains = .lost then 2 else s.scanner.blankSets) = 0 ∧
      s.drive.halfCycles + 1 - r.changedAt ≠ 0 ∧ s.drive.halfCycles + 1 - r.changedAt ≠ 1 ∧
        s.drive.halfCycles + 1 - r.changedAt ≠ 2 := by
  obtain ⟨hcount, -, -, hblank, -⟩ := countMark_counts s
  rw [setBlanked_eq_false, (applyTargets_lamp s.countMark).halfCycles, (applyTargets_marks s.countMark).1, hcount, hblank]

theorem marked_lastCurrent (s : State) (values : Vector Nat 24) (n : CircuitId) :
    (s.marked values).circuits[n].lastCurrent =
      if s.drive.records[n].applied && !s.countMark.applyTargets.setBlanked s.drive.records[n] then min 4095 values[n]
      else s.circuits[n].lastCurrent := by
  obtain ⟨-, hcurrents⟩ := sampleSet_lamps s.countMark.applyTargets s.drive.records values
  obtain ⟨-, -, -, -, hcircuits⟩ := countMark_counts s
  rw [applyTargets_circuits, hcircuits] at hcurrents
  exact hcurrents n

/-- The blanking that is counted down is that of this mark. -/
theorem sampled_blankSets (s : State) (values : Vector Nat 24) :
    (s.countMark.applyTargets.sampleSet s.drive.records values).scanner.blankSets =
      if s.scanner.mains = .lost then 2 else s.scanner.blankSets := by
  obtain ⟨-, -, -, hblank, -⟩ := countMark_counts s
  exact ((applyTargets_marks s.countMark).trans (sampleSet_lamps _ s.drive.records values).1.marks).1.trans hblank

/-- The marked state, told which readings of the set are not blanked. -/
theorem marked_eq (s : State) (values : Vector Nat 24) (delivered : CircuitId → Bool)
    (h : ∀ n : CircuitId, delivered n = !s.countMark.applyTargets.setBlanked s.drive.records[n]) :
    let checked := circuitIds.foldl
      (fun (u : State) n => if !s.drive.records[n].applied && delivered n then u.voltageReading n (min 400 values[n]) else u)
      (circuitIds.foldl
        (fun (u : State) n => if s.drive.records[n].applied && delivered n then u.currentReading n (min 4095 values[n]) else u)
        s.countMark.applyTargets)
    s.marked values = { checked with
      scanner := { checked.scanner with blankSets := (if s.scanner.mains = .lost then 2 else s.scanner.blankSets) - 1 } } := by
  dsimp only
  rw [← sampleSet_eq _ _ _ delivered h, ← sampled_blankSets s values]
  rfl

/-- A record that has not been switched at this very instant loses nothing of how it stands (R126). -/
theorem takenBack_of_other {r : DriveRecord} {now : Nat} (h : ∀ b, r.before = some b → b.instant ≠ now) :
    (r.takenBack now).applied = r.applied ∧ (r.takenBack now).changedAt = r.changedAt := by
  unfold DriveRecord.takenBack
  split
  next b hb =>
    rw [if_neg (h b hb)]
    exact ⟨rfl, rfl⟩
  next => exact ⟨rfl, rfl⟩

/-- A record that has been switched at this very instant stands as before (R126). -/
theorem takenBack_of_same {r : DriveRecord} {b : Standing} {now : Nat} (hb : r.before = some b) (h : b.instant = now) :
    (r.takenBack now).applied = b.applied ∧ (r.takenBack now).changedAt = b.changedAt := by
  simp [DriveRecord.takenBack, hb, h]

/-- Unless it is taken back, a circuit meets the mark as it stands. -/
theorem countMark_stands {s : State} {n : CircuitId}
    (h : s.scanner.mains = .present ∨ ∀ b, s.drive.records[n].before = some b → b.instant ≠ s.now) :
    s.countMark.drive.records[n].applied = s.drive.records[n].applied ∧
      s.countMark.drive.records[n].changedAt = s.drive.records[n].changedAt := by
  rw [countMark_record]
  split
  next hlost => exact takenBack_of_other (h.resolve_left (by rw [hlost]; decide))
  next => exact ⟨rfl, rfl⟩

/-- A circuit switched at this very instant meets the mark that ends the loss as it stood before. -/
theorem countMark_takenBack {s : State} {n : CircuitId} {b : Standing} (hlost : s.scanner.mains = .lost)
    (hb : s.drive.records[n].before = some b) (h : b.instant = s.now) :
    s.countMark.drive.records[n].applied = b.applied ∧ s.countMark.drive.records[n].changedAt = b.changedAt := by
  rw [countMark_record, if_pos hlost]
  exact takenBack_of_same hb h

/-- No set is blanked at a mark that meets mains PRESENT with none left to blank (R126). -/
theorem blankSets_eq_zero (lost : Prop) [Decidable lost] (k : Nat) : (if lost then 2 else k) = 0 ↔ ¬ (lost ∨ 0 < k) := by
  split
  next h => simp [h]
  next h => simp [h]

/-! ### The obligation -/

/-- Settles O47: the tables by cases, the reading by its definition, the mark by what each of its parts leaves. -/
theorem halfCycleMarks : Obligations.HalfCycleMarks := by
  refine ⟨fun s n => ?commands, fun s n v => ?readings, fun dt values s hphase => ?mark⟩
  case commands =>
    refine (fun hnames => ⟨hnames, commanded_of_lockout, fun hnone => ?unassigned,
      fun g a hfree hname hone _ => ?assigned, target_iff s n⟩) (fun g a => ?names)
    case names => cases a <;> exact mem_cfgLampCircuits s.cfg g _ n
    case unassigned => exact commanded_of_unassigned (fun g a hmem => hnone g a ((hnames g a).mp hmem))
    case assigned =>
      exact (commanded_of_assigned hfree ((hnames g a).mpr hname) (fun k b hmem => hone k b ((hnames k b).mp hmem))).trans
        (lampCommand_eq _ _)
  case readings =>
    refine ⟨classifies_iff _, ?_, rfl⟩
    unfold State.currentReading
    dsimp only
    split
    · split <;> rfl
    · rfl
  case mark =>
    obtain ⟨hcount, hlast, hmains⟩ := marked_counts (elapse dt s) values
    have hsettled := settle_settled ((elapse dt s).marked values)
    have hlamps := settle_lamps hmains
    refine ⟨((elapse dt s).marked values).settle, ?_, exec_halfCycleMark hphase dt values, hsettled.halfCycles.trans hcount,
      hlamps.marks.2.trans hlast, hsettled.mains.trans hmains, fun n => ?_, fun n => ?_⟩
    · refine congrArg State.settle (marked_eq (elapse dt s) values _ (fun n => ?_))
      rw [Bool.eq_iff_iff, decide_eq_true_iff, Bool.not_eq_true', applied_setBlanked]
      rfl
    · obtain ⟨happlied, hchanged⟩ := marked_record (elapse dt s) values n
      rw [toward_changedAt] at hchanged
      refine ⟨(hlamps.applied n).trans (happlied.trans (toward_applied _ _ _)), fun hstands => ?_, fun b hlost hb hinstant => ?_⟩
      · obtain ⟨hbefore, hsince⟩ := countMark_stands (s := elapse dt s) hstands
        rw [hbefore, hsince] at hchanged
        exact (hlamps.changedAt n).trans hchanged
      · obtain ⟨hbefore, hsince⟩ := countMark_takenBack (s := elapse dt s) hlost hb hinstant
        rw [hbefore, hsince] at hchanged
        exact (hlamps.changedAt n).trans hchanged
    · refine (hlamps.lastCurrent n).trans ((marked_lastCurrent _ _ _).trans ?_)
      simp only [Bool.and_eq_true, Bool.not_eq_true', applied_setBlanked, blankSets_eq_zero]
      rfl

end Sys2Proof.Machine
end

section
/-! PROOFS. What DRIVE_EN and the loss of mains do to the outputs, the groups and the mode (R94, R96, R97, R125). -/

namespace Sys2Proof.Machine

-- One declaration at a time, as in the tests: declarations that wait for one another each hold a thread with its stack.
set_option Elab.async false

open Sys2Proof.Safety

/-! ### While mains is lost -/

/-- A change of target applies at once while mains is lost, and how the circuit stood is held (R94, log 43). -/
theorem applyLost_record {s : State} (h : s.scanner.mains = .lost) (n : CircuitId) :
    s.applyLost.drive.records[n] = if s.drive.records[n].applied = s.target n then s.drive.records[n]
      else { s.drive.records[n].toward (s.target n) s.drive.halfCycles with before := some (s.standing n) } := by
  have hremember : s.applyLost.drive.records[n] =
      if s.applyTargets.drive.records[n].applied = s.drive.records[n].applied then s.applyTargets.drive.records[n]
      else { s.applyTargets.drive.records[n] with before := some (s.standing n) } := by
    simp only [State.applyLost, h, State.remember, Fin.getElem_fin, Vector.getElem_ofFn]
  rw [hremember, applyTargets_record, toward_applied]
  by_cases hsame : s.drive.records[n].applied = s.target n
  · rw [if_pos hsame.symm, if_pos hsame, DriveRecord.toward, if_pos hsame]
  · rw [if_neg (Ne.symm hsame), if_neg hsame]

theorem standing_of_same {s : State} {n : CircuitId} {b : Standing} (hb : s.drive.records[n].before = some b)
    (h : b.instant = s.now) : s.standing n = b := by
  simp only [State.standing, hb, h, ↓reduceIte]

theorem standing_of_other {s : State} {n : CircuitId} (h : ∀ b, s.drive.records[n].before = some b → b.instant ≠ s.now) :
    s.standing n = { instant := s.now, applied := s.drive.records[n].applied, changedAt := s.drive.records[n].changedAt,
                     offSince := s.cable.cores[n].offSince } := by
  unfold State.standing
  dsimp only
  split
  next b hb => rw [if_neg (h b hb)]
  next => rfl

/-- No test is in flight. -/
def Untested (s : State) : Prop := s.scanner.leakTest = none ∧ ∀ n : CircuitId, s.cable.cores[n].probe = none

theorem switch_core (s : State) (n m : CircuitId) (on : Bool) :
    (s.switch n on).cable.cores[m] = if n = m then s.cable.cores[n].switched on s.stamp else s.cable.cores[m] := by
  have hset : ((s.setDrive n { s.drive.records[n] with applied := on, changedAt := s.drive.halfCycles, before := none }).setCore n
      (s.cable.cores[n].switched on s.stamp)).cable.cores[m] =
        if n = m then s.cable.cores[n].switched on s.stamp else s.cable.cores[m] := by
    simp only [State.setCore, State.setDrive, Fin.getElem_fin, Vector.getElem_set, Fin.val_inj]
  unfold State.switch
  dsimp only
  split
  all_goals exact hset

theorem switched_state (r : CoreRecord) (on : Bool) (stamp : Nat) : (r.switched on stamp).state = r.state := by
  unfold CoreRecord.switched
  split <;> rfl

theorem switched_probe {r : CoreRecord} (h : r.probe = none) (on : Bool) (stamp : Nat) : (r.switched on stamp).probe = none := by
  unfold CoreRecord.switched
  split
  · rfl
  · exact h

theorem switch_leakTest {s : State} (h : s.scanner.leakTest = none) (n : CircuitId) (on : Bool) :
    (s.switch n on).scanner.leakTest = none := by
  unfold State.switch
  dsimp only
  split
  · simp [Scanner.cancelLeak, h]
  · exact h

/-- A switch starts no test (R143, R151). -/
theorem switchDue_untested {s : State} (h : Untested s) (n : CircuitId) : Untested (s.switchDue n) := by
  obtain ⟨hleak, hprobe⟩ := h
  unfold State.switchDue
  split
  · exact ⟨hleak, hprobe⟩
  · refine ⟨switch_leakTest hleak n _, fun m => ?_⟩
    rw [switch_core]
    split
    · exact switched_probe (hprobe n) _ _
    · exact hprobe m

theorem applyTargets_untested {s : State} (h : Untested s) : Untested s.applyTargets := by
  rw [applyTargets_eq, Untested, (refreshEvidence_control _).scanner, (refreshEvidence_control _).cable]
  exact foldl_keeps Untested _ (fun t n ht => switchDue_untested ht n) _ s h

/-- A loss of mains cancels every probe and test, and brings every circuit to its target (R94, R125, R143, R151). -/
theorem loseMains_untested (s : State) : Untested s.loseMains :=
  applyTargets_untested ⟨rfl, fun n => by simp [State.cancelTests]⟩

theorem loseMains_mains (s : State) : s.loseMains.scanner.mains = .lost := by
  unfold State.loseMains
  rw [(applyTargets_lamp _).mains]
  rfl

theorem loseMains_applied (s : State) (n : CircuitId) : s.loseMains.drive.records[n].applied = s.target n := by
  rw [State.loseMains, applyTargets_record, toward_applied]
  unfold State.cancelTests
  exact target_congr rfl rfl rfl rfl rfl

/-! ### Evidence that is only lost -/

/-- Only groups and the detected pairs differ. -/
def EvidenceOnly (s t : State) : Prop :=
  t = { s with groups := t.groups, fallback := { s.fallback with detected := t.fallback.detected } }

theorem EvidenceOnly.refl (s : State) : EvidenceOnly s s := rfl

theorem EvidenceOnly.trans {s t u : State} (h : EvidenceOnly s t) (k : EvidenceOnly t u) : EvidenceOnly s u := by
  unfold EvidenceOnly at *
  rw [k, h]

/-- A group that loses its evidence brings no conflict (R157). -/
theorem setEvidence_false (s : State) (g : GroupId) : EvidenceOnly s (s.setEvidence g false) := by
  have hset : EvidenceOnly s (s.setGroup g { s.groups[g] with evidence := false }).dropEndedPairs := rfl
  have hrecheck := (recheckAround_groupsOnly (s.setGroup g { s.groups[g] with evidence := false }).dropEndedPairs g).same
  refine hset.trans ?_
  unfold State.setEvidence EvidenceOnly
  dsimp only
  rw [if_neg (by decide)]
  rw [hrecheck]

/-- Where no group gains evidence, a refresh changes groups and the detected pairs alone. -/
theorem refreshEvidence_of_losses {s : State} (h : ∀ g : GroupId, s.evidenceOf g = true → s.groups[g].evidence = true) :
    EvidenceOnly s s.refreshEvidence := by
  have hlose : EvidenceOnly s (groupIds.foldl
      (fun u g => if u.groups[g].evidence && !u.evidenceOf g then u.setEvidence g false else u) s) :=
    foldl_keeps (EvidenceOnly s) _ (fun t g ht => by
      split
      · exact ht.trans (setEvidence_false t g)
      · exact ht) _ s (.refl s)
  have hcontrol : Control s (groupIds.foldl
      (fun u g => if u.groups[g].evidence && !u.evidenceOf g then u.setEvidence g false else u) s) :=
    foldl_control _ (fun t g => by
      split
      · exact setEvidence_control t g _
      · exact Control.refl t) _ s
  have hleft (g : GroupId) := foldl_setEvidence false (fun u g => u.groups[g].evidence && !u.evidenceOf g)
    (fun t g => by cases t.groups[g].evidence <;> cases t.evidenceOf g <;> rfl) groupIds s g
  unfold State.refreshEvidence
  dsimp only
  generalize groupIds.foldl (fun u g => if u.groups[g].evidence && !u.evidenceOf g then u.setEvidence g false else u) s = t
    at hlose hcontrol hleft ⊢
  have hgains : groupIds.foldl (fun u g => if !u.groups[g].evidence && u.evidenceOf g then u.setEvidence g true else u) t = t := by
    refine foldl_keeps (fun u => u = t) _ (fun u g hu => ?_) _ t rfl
    rw [hu, if_neg]
    rw [hleft g, hcontrol.evidenceOf]
    have := h g
    cases hg : s.evidenceOf g <;> simp_all
  rw [hgains]
  exact hlose

end Sys2Proof.Machine
end

section
/-! PROOFS. The fall and the rise of DRIVE_EN (R96, R97, R139). -/

namespace Sys2Proof.Machine

-- One declaration at a time, as in the tests: declarations that wait for one another each hold a thread with its stack.
set_option Elab.async false

open Sys2Proof.Safety

/-! ### The fall -/

theorem switchDue_coreState (s : State) (n m : CircuitId) : (s.switchDue n).cable.cores[m].state = s.cable.cores[m].state := by
  unfold State.switchDue
  split
  · rfl
  · rw [switch_core]
    split
    next heq => rw [switched_state, heq]
    next => rfl

/-- With DRIVE_EN low every output goes OFF, so that evidence is only lost: what follows changes neither the sequencer nor, but for the
detected pairs, the fallback records (R96, R157). -/
theorem applyTargets_of_driveOff {s : State} (hoff : s.drive.driveEn = false) (hevidence : EvidenceComputed s) :
    s.applyTargets.seq = s.seq ∧
      s.applyTargets.fallback = { s.fallback with detected := s.applyTargets.fallback.detected } := by
  have honly := foldl_switchDue_only s
  have happlied (n : CircuitId) : (circuitIds.foldl State.switchDue s).drive.records[n].applied = false := by
    rw [foldl_switchDue_record, toward_applied, target_of_driveOff hoff]
  have hcores : ∀ n : CircuitId, (circuitIds.foldl State.switchDue s).cable.cores[n].state = s.cable.cores[n].state :=
    foldl_keeps (fun t : State => ∀ n : CircuitId, t.cable.cores[n].state = s.cable.cores[n].state) _
      (fun t m ht n => (switchDue_coreState t m n).trans (ht n)) _ s (fun _ => rfl)
  rw [applyTargets_eq]
  generalize circuitIds.foldl State.switchDue s = t at honly happlied hcores ⊢
  have hlosses : EvidenceOnly t t.refreshEvidence := by
    refine refreshEvidence_of_losses (fun g hg => ?_)
    rw [evidenceOf_iff, State.cfg, honly.groups, honly.mgmt] at hg
    obtain ⟨hkind, n, hmem, hsource⟩ := hg
    rw [happlied n, hcores n] at hsource
    rw [honly.groups, hevidence g, evidenceOf_iff]
    exact ⟨hkind, n, hmem, .inr (hsource.resolve_left Bool.false_ne_true)⟩
  refine ⟨?_, ?_⟩
  · rw [hlosses]
    exact honly.seq
  · have hfallback : t.refreshEvidence.fallback = { t.fallback with detected := t.refreshEvidence.fallback.detected } := by
      conv => lhs; rw [hlosses]
    rw [hfallback, honly.fallback]

theorem shift_seq (s : State) (m : JunctionMode) (f : Fallback) : (s.shift m f).seq = { s.seq with mode := m } := by
  unfold State.shift State.followFallback
  split <;> rfl

/-- What follows from the groups and the instant alone. -/
theorem Shows.congr {v p : Aspect} {s s' t t' : State} (h : Shows v p s t) (groups : s'.groups = s.groups)
    (stamp : s'.stamp = s.stamp) (shown : t'.groups = t.groups) : Shows v p s' t' := by
  unfold Shows at *
  rw [groups, stamp, shown]
  exact h

/-- DARK by SHOW_DARK: a transfer ends with normal control, every used group is DARK (R68, R81, R101). -/
theorem toDark_transfer (s : State) (f : Fallback) :
    (s.toDark f).seq.transfer = if s.seq.mode.normal then .none else s.seq.transfer := by
  have hseq : (s.toDark f).seq = { s.leaveNormal.seq with mode := .dark } := shift_seq _ _ _
  rw [hseq, State.leaveNormal]
  split <;> rfl

theorem toDark_groups (s : State) (f : Fallback) (g : GroupId) (h : (s.toDark f).groups[g].kind ≠ .unused) :
    (s.toDark f).groups[g].aspect = .dark ∧ (s.toDark f).groups[g].gain = none := by
  obtain ⟨hkind, -, hvehicle, hpedestrian, hused⟩ := showAll_shows (s.leaveNormal.shift .dark { f with failRed := .none }) .dark .dark g
  have hbefore := fun hunused => h (hkind.trans hunused)
  refine ⟨?_, (hused hbefore).2.1⟩
  cases hk : (s.leaveNormal.shift .dark { f with failRed := .none }).groups[g].kind with
  | unused => exact absurd hk hbefore
  | vehicle => exact hvehicle hk
  | pedestrian => exact hpedestrian hk

/-- DRIVE_EN low, every output OFF (R96). -/
def State.switchedOff (s : State) : State := { s with drive := { s.drive with driveEn := false } }.applyTargets.forget

theorem driveFall_eq (s : State) : s.driveFall = (s.switchedOff.toDark s.switchedOff.driveOffCause).raise .driveOff 255 := rfl

/-- What the fall leaves of the drive. -/
theorem driveFall_drive (s : State) :
    s.driveFall.drive.pin = s.drive.pin ∧ s.driveFall.drive.driveEn = false ∧
      ∀ n : CircuitId, s.driveFall.drive.records[n].applied = false := by
  have hdrive : s.driveFall.drive = s.switchedOff.drive := ((toDark_control _ _).trans (raise_control _ _ _)).drive
  have hlamp : Lamp { s with drive := { s.drive with driveEn := false } } s.switchedOff :=
    (applyTargets_lamp _).trans (forget_lamp _)
  rw [hdrive]
  refine ⟨hlamp.pin, hlamp.driveEn, fun n => ?_⟩
  rw [State.switchedOff, forget_record, applyTargets_record]
  exact (toward_applied _ _ _).trans (target_of_driveOff rfl n)

/-- Switching the outputs off leaves the sequencer, and the fallback records but for the detected pairs. -/
theorem switchedOff_leaves {s : State} (h : EvidenceComputed s) :
    s.switchedOff.seq = s.seq ∧ s.switchedOff.fallback = { s.fallback with detected := s.switchedOff.fallback.detected } := by
  have hsame : EvidenceComputed { s with drive := { s.drive with driveEn := false } } := h
  obtain ⟨hseq, hfallback⟩ := applyTargets_of_driveOff rfl hsame
  unfold State.switchedOff
  rw [forget_seq, forget_fallback]
  generalize State.applyTargets _ = t at hseq hfallback ⊢
  exact ⟨hseq, hfallback⟩

theorem driveFall_mode {s : State} (h : EvidenceComputed s) :
    s.driveFall.seq.mode = .dark ∧ s.driveFall.seq.transfer = if s.seq.mode.normal then .none else s.seq.transfer := by
  obtain ⟨hseq, -⟩ := switchedOff_leaves h
  rw [driveFall_eq, raise_seq, toDark_transfer, hseq]
  exact ⟨(toDark_mode _ _).1, rfl⟩

/-- The fallback records after the fall: those of the cause that R96 gives, the fail-red timer NONE. -/
theorem driveFall_fallback (s : State) : s.driveFall.fallback = { s.switchedOff.driveOffCause with failRed := .none } := by
  rw [driveFall_eq, raise_fallback]
  exact (toDark_mode _ _).2

theorem driveFall_causeKept {s : State} (h : EvidenceComputed s)
    (hkept : s.fallback.cause.cause = .configEmpty ∨ s.fallback.latch = true) :
    s.driveFall.fallback.cause = s.fallback.cause ∧ s.driveFall.fallback.latch = s.fallback.latch := by
  obtain ⟨-, hfallback⟩ := switchedOff_leaves h
  have hcause : s.switchedOff.driveOffCause = s.switchedOff.fallback := by
    unfold State.driveOffCause
    rw [if_pos (by rw [hfallback]; simpa using hkept)]
  rw [driveFall_fallback, hcause, hfallback]
  exact ⟨rfl, rfl⟩

theorem driveFall_causeWritten {s : State} (h : EvidenceComputed s) (hcause : s.fallback.cause.cause ≠ .configEmpty)
    (hlatch : s.fallback.latch = false) :
    s.driveFall.fallback.cause = { cause := .driveOff, subject := 255, time := s.seq.clock } ∧
      s.driveFall.fallback.last = s.driveFall.fallback.cause ∧ s.driveFall.fallback.latch = s.fallback.latch := by
  obtain ⟨hseq, hfallback⟩ := switchedOff_leaves h
  have hwritten : s.switchedOff.driveOffCause = s.switchedOff.written .driveOff 255 true := by
    unfold State.driveOffCause
    rw [if_neg (by rw [hfallback]; simp [hcause, hlatch])]
  rw [driveFall_fallback, hwritten, State.written, hseq, hfallback]
  exact ⟨rfl, rfl, rfl⟩

/-! ### The rise: alarms -/

/-- No alarm of a code and subject is ACTIVE. -/
def Inactive (c : AlarmCode) (n : Byte) (s : State) : Prop := ∀ e ∈ s.alarms.list, e.code = c → e.subject = n → e.active = false

/-- A raise of another code. -/
theorem raise_inactive {s : State} {c d : AlarmCode} {n : Byte} (h : Inactive c n s) (hcode : d ≠ c) (m : Byte) :
    Inactive c n (s.raise d m) := by
  intro e he hc hn
  refine h e (raiseOn_mem _ _ _ _ _ e he ?_) hc hn
  rw [← Bool.not_eq_true, AlarmEntry.is_iff]
  exact fun ⟨hd, _⟩ => hcode (hd.symm.trans hc)

theorem clear_keepsInactive {s : State} {c : AlarmCode} {n : Byte} (h : Inactive c n s) (d : AlarmCode) (m : Byte) :
    Inactive c n (s.clear d m) := by
  intro e he hc hn
  rw [← Bool.not_eq_true]
  intro ha
  have hbefore := h e (clearOn_active_mem _ _ _ _ _ e he ha) hc hn
  rw [ha] at hbefore
  cases hbefore

/-- Only alarm FALLBACK follows a change of mode (R162). -/
theorem shift_inactive {s : State} {c : AlarmCode} {n : Byte} (h : Inactive c n s) (hcode : c ≠ .fallback) (m : JunctionMode)
    (f : Fallback) : Inactive c n (s.shift m f) := by
  have hset : Inactive c n { s with seq := { s.seq with mode := m }, fallback := f } := h
  unfold State.shift State.followFallback
  split
  · exact raise_inactive hset (Ne.symm hcode) 255
  · exact clear_keepsInactive hset _ _
  · exact hset
  · exact hset

theorem leaveNormal_inactive {s : State} {c : AlarmCode} {n : Byte} (h : Inactive c n s) : Inactive c n s.leaveNormal := by
  unfold State.leaveNormal
  split
  · exact h
  · exact h

theorem clearToRed_inactive {s : State} {c : AlarmCode} {n : Byte} (h : Inactive c n s) : Inactive c n s.clearToRed := by
  have halarms : s.clearToRed.alarms = s.alarms := by rw [(clearToRed_groupsOnly s).same]
  rw [Inactive, halarms]
  exact h

theorem controlled_inactive {s : State} {c : AlarmCode} {n : Byte} (h : Inactive c n s) (hcode : c ≠ .fallback) (cause : Cause)
    (subject : Byte) : Inactive c n (s.controlled cause subject) := by
  unfold State.controlled
  dsimp only
  split
  · exact clearToRed_inactive (shift_inactive (leaveNormal_inactive h) hcode _ _)
  · split
    · exact h
    · exact shift_inactive h hcode _ _

/-- START as it is entered, before a red still LOST is handed over (R102). -/
def State.startEntered (s : State) (f : Fallback) : State :=
  let t := (s.endNormal.shift .start { f with failRed := .none }).showRed
  { t with seq := { t.seq with startRed := some (t.loadTimer (cfgStartRed t.cfg)) } }

theorem enterStart_eq (s : State) (f : Fallback) : s.enterStart f = (s.startEntered f).redLossAtStart := rfl

theorem startEntered_inactive {s : State} {c : AlarmCode} {n : Byte} (h : Inactive c n s) (hcode : c ≠ .fallback) (f : Fallback) :
    Inactive c n (s.startEntered f) :=
  shift_inactive (s := s.endNormal) h hcode .start { f with failRed := .none }

theorem redLossAtStart_inactive {s : State} {c : AlarmCode} {n : Byte} (h : Inactive c n s) (hcode : c ≠ .fallback) :
    Inactive c n s.redLossAtStart := by
  unfold State.redLossAtStart
  split
  · refine foldl_keeps (Inactive c n) _ (fun u g hu => ?_) _ _ h
    split
    · exact controlled_inactive hu hcode _ _
    · exact hu
  · exact h

end Sys2Proof.Machine
end

section
/-! PROOFS. The rise of DRIVE_EN: the entry to START and the lost reds that it meets (R97, R102, R139). -/

namespace Sys2Proof.Machine

-- One declaration at a time, as in the tests: declarations that wait for one another each hold a thread with its stack.
set_option Elab.async false

open Sys2Proof.Safety

/-! ### START as it is entered -/

theorem startEntered_seq (s : State) (f : Fallback) :
    (s.startEntered f).seq =
      { s.endNormal.seq with mode := .start, startRed := some (s.loadTimer (cfgStartRed s.cfg)) } := by
  have hcontrol := shift_control s.endNormal .start { f with failRed := .none }
  have hseq := shift_seq s.endNormal .start { f with failRed := .none }
  unfold State.startEntered
  generalize s.endNormal.shift .start { f with failRed := .none } = t at hcontrol hseq ⊢
  have hstamp : t.stamp = s.stamp := by rw [State.stamp, hcontrol.now, hcontrol.resetEnd]; rfl
  have hcfg : t.cfg = s.cfg := by rw [State.cfg, hcontrol.mgmt]; rfl
  have htimer : t.showRed.loadTimer (cfgStartRed t.showRed.cfg) = s.loadTimer (cfgStartRed s.cfg) := by
    show t.loadTimer (cfgStartRed t.cfg) = _
    rw [State.loadTimer, hstamp, hcfg]
    rfl
  have hshow : t.showRed.seq = t.seq := rfl
  simp only [htimer, hshow, hseq]

theorem startEntered_fallback (s : State) (f : Fallback) : (s.startEntered f).fallback = { f with failRed := .none } :=
  (shift_mode s.endNormal .start { f with failRed := .none }).2

theorem startEntered_inStart (s : State) (f : Fallback) : InStart (s.startEntered f) := by
  rw [InStart, startEntered_seq]
  exact ⟨rfl, rfl, rfl, rfl, rfl, rfl, rfl, rfl, rfl, rfl, rfl, rfl, rfl⟩

theorem startEntered_groups (s : State) (f : Fallback) : (s.startEntered f).groups = s.showRed.groups := by
  have hgroups := shift_groups s.endNormal .start { f with failRed := .none }
  have hcontrol := shift_control s.endNormal .start { f with failRed := .none }
  unfold State.startEntered
  generalize s.endNormal.shift .start { f with failRed := .none } = t at hgroups hcontrol ⊢
  have hstamp : t.stamp = s.stamp := by rw [State.stamp, hcontrol.now, hcontrol.resetEnd]; rfl
  have hsame : t.groups = s.groups := hgroups
  show t.showRed.groups = s.showRed.groups
  simp only [State.showRed, State.showAll, hsame, hstamp]

/-- SHOW_RED leaves nothing to clear to red. -/
theorem startEntered_red (s : State) (f : Fallback) (g : GroupId) :
    (s.startEntered f).groups[g].kind = .unused ∨
      (s.startEntered f).groups[g].aspect = .red ∧ (s.startEntered f).groups[g].withheld = false ∧
        (s.startEntered f).groups[g].gain = none := by
  rw [startEntered_groups, State.showRed, showAll_getElem]
  generalize s.groups[g] = x
  unfold Group.show
  split
  next hkind => exact .inl hkind
  next => exact .inr ⟨rfl, rfl, rfl⟩
  next => exact .inr ⟨rfl, rfl, rfl⟩

theorem startEntered_redStatus (s : State) (f : Fallback) (g : GroupId) :
    (s.startEntered f).groups[g].redStatus = s.groups[g].redStatus := by
  rw [startEntered_groups]
  exact (showAll_groupsOnly s .red .red).redStatus g

/-! ### Lost reds at START -/

theorem clearedToRed_unused {x : Group} (h : x.kind = .unused) (n : Nat) (a c : Timer) : x.clearedToRed n a c = x := by
  unfold Group.clearedToRed
  rw [Group.terminate_unused h, Group.returnRed_unused h]
  cases x.aspect <;> simp

theorem clearedToRed_plain {x : Group} (hred : x.aspect = .red) (hheld : x.withheld = false) (hgain : x.gain = none) (n : Nat)
    (a c : Timer) : x.clearedToRed n a c = x := by
  simp [Group.clearedToRed, hred, hheld, hgain]

/-- Nothing to clear: every used group is in RED with nothing asked of it. -/
theorem clearToRed_eq_self {s : State} (h : ∀ g : GroupId, s.groups[g].kind = .unused ∨
    s.groups[g].aspect = .red ∧ s.groups[g].withheld = false ∧ s.groups[g].gain = none) : s.clearToRed = s := by
  have hgroups : s.clearToRed.groups = s.groups := by
    refine Vector.ext (fun i hi => ?_)
    refine (clearToRed_getElem s ⟨i, hi⟩).trans ?_
    rcases h ⟨i, hi⟩ with hkind | ⟨hred, hheld, hgain⟩
    · exact clearedToRed_unused hkind _ _ _
    · exact clearedToRed_plain hred hheld hgain _ _ _
  rw [(clearToRed_groupsOnly s).same, hgroups]

/-- With no red LOST, or under another red-loss action, nothing is handed over (R139). -/
theorem redLossAtStart_eq_self {s : State} (h : cfgRedLossFlash s.cfg = false ∨ ∀ g : GroupId, s.groups[g].redStatus ≠ .lost) :
    s.redLossAtStart = s := by
  unfold State.redLossAtStart
  split
  next hflash =>
    have hnone := h.resolve_left (by rw [hflash]; decide)
    exact foldl_keeps (fun t => t = s) _ (fun t g ht => by rw [ht, if_neg (hnone g)]) _ s rfl
  next => rfl

/-- FAIL_RED for a lost red of one group, out of START with its groups as they are. -/
structure RedLostAt (s t : State) : Prop where
  groups : t.groups = s.groups
  clock : t.seq.clock = s.seq.clock
  control : OutOfControl .failRed t
  waiting : t.fallback.failRed = .waiting
  cause : t.fallback.cause.cause = .redLoss

/-- The cause names this group, now. -/
def RedLossCause (g : GroupId) (t : State) : Prop :=
  t.fallback.cause = { cause := .redLoss, subject := BitVec.ofNat 8 g.val, time := t.seq.clock } ∧ t.fallback.last = t.fallback.cause

/-- A lost red that START meets first ends it (R139, R164). -/
theorem controlled_of_start {s : State} (hmode : s.seq.mode = .start) (hred : ∀ g : GroupId, s.groups[g].kind = .unused ∨
      s.groups[g].aspect = .red ∧ s.groups[g].withheld = false ∧ s.groups[g].gain = none) (g : GroupId) :
    RedLostAt s (s.controlled .redLoss (BitVec.ofNat 8 g.val)) ∧ RedLossCause g (s.controlled .redLoss (BitVec.ofNat 8 g.val)) := by
  have hnormal : s.seq.mode.normal = true := by rw [hmode]; rfl
  have hcontrolled : s.controlled .redLoss (BitVec.ofNat 8 g.val) = s.endNormal.shift .failRed
      { s.written .redLoss (BitVec.ofNat 8 g.val) true with failRed := .waiting } := by
    have hclear := clearToRed_eq_self (s := s.endNormal.shift .failRed
      { s.written .redLoss (BitVec.ofNat 8 g.val) true with failRed := .waiting }) (fun i => by rw [shift_groups]; exact hred i)
    unfold State.controlled State.leaveNormal
    rw [if_pos hnormal, if_pos hnormal]
    exact hclear
  rw [hcontrolled]
  have hgroups := shift_groups s.endNormal .failRed { s.written .redLoss (BitVec.ofNat 8 g.val) true with failRed := .waiting }
  have hseq := shift_seq s.endNormal .failRed { s.written .redLoss (BitVec.ofNat 8 g.val) true with failRed := .waiting }
  obtain ⟨-, hfallback⟩ := shift_mode s.endNormal .failRed
    { s.written .redLoss (BitVec.ofNat 8 g.val) true with failRed := .waiting }
  generalize s.endNormal.shift .failRed _ = t at hgroups hseq hfallback ⊢
  refine ⟨⟨hgroups, by rw [hseq]; rfl, ?_, by rw [hfallback], by rw [hfallback]; rfl⟩, ?_⟩
  · rw [OutOfControl, hseq]
    exact ⟨rfl, rfl, rfl, rfl, rfl, rfl, rfl, rfl, rfl, rfl, rfl, rfl, rfl, rfl⟩
  · rw [RedLossCause, hfallback, hseq]
    exact ⟨rfl, rfl⟩

/-- A further lost red takes the cause over (R163). -/
theorem controlled_of_redLost {s t : State} (h : RedLostAt s t) (g : GroupId) :
    RedLostAt s (t.controlled .redLoss (BitVec.ofNat 8 g.val)) ∧ RedLossCause g (t.controlled .redLoss (BitVec.ofNat 8 g.val)) := by
  have hmode : t.seq.mode = .failRed := h.control.1
  have hkept : t.causeKept = false := by simp [State.causeKept, h.cause]
  have hcontrolled : t.controlled .redLoss (BitVec.ofNat 8 g.val) =
      t.shift t.seq.mode (t.written .redLoss (BitVec.ofNat 8 g.val) true) := by
    unfold State.controlled
    dsimp only
    rw [if_neg (by rw [hmode]; decide), if_neg (by rw [hkept]; decide)]
  rw [hcontrolled]
  have hgroups := shift_groups t t.seq.mode (t.written .redLoss (BitVec.ofNat 8 g.val) true)
  have hseq : (t.shift t.seq.mode (t.written .redLoss (BitVec.ofNat 8 g.val) true)).seq = t.seq := shift_seq _ _ _
  obtain ⟨-, hfallback⟩ := shift_mode t t.seq.mode (t.written .redLoss (BitVec.ofNat 8 g.val) true)
  generalize t.shift t.seq.mode _ = u at hgroups hseq hfallback ⊢
  refine ⟨⟨hgroups.trans h.groups, by rw [hseq]; exact h.clock, ?_, ?_, by rw [hfallback]; rfl⟩, ?_⟩
  · rw [OutOfControl, hseq]
    exact h.control
  · rw [hfallback]
    exact h.waiting
  · rw [RedLossCause, hfallback, hseq]
    exact ⟨rfl, rfl⟩

/-- A fold none of whose steps changes where it starts ends there. -/
theorem foldl_eq_self {σ ι : Type} {f : σ → ι → σ} {t : σ} {l : List ι} (h : ∀ a ∈ l, f t a = t) : l.foldl f t = t := by
  induction l with
  | nil => rfl
  | cons a l ih =>
    rw [List.foldl_cons, h a List.mem_cons_self]
    exact ih (fun b hb => h b (List.mem_cons_of_mem a hb))

/-- A fold in increasing order, of which no step after that at `i` does anything, ends as that step leaves it. -/
theorem foldl_last {σ : Type} {m : Nat} {f : σ → Fin m → σ} {P Q : σ → Prop} {i : Fin m} (hP : ∀ t a, P t → P (f t a))
    (hQ : ∀ t, P t → Q (f t i)) (hafter : ∀ t a, P t → i < a → f t a = t) {l : List (Fin m)} (hl : l.Pairwise (· < ·))
    (hi : i ∈ l) {t : σ} (ht : P t) : Q (l.foldl f t) := by
  induction l generalizing t with
  | nil => cases hi
  | cons a l ih =>
    obtain ⟨hfirst, hrest⟩ := List.pairwise_cons.mp hl
    rw [List.foldl_cons]
    rcases List.mem_cons.mp hi with rfl | hi
    · rw [foldl_eq_self (fun b hb => hafter _ b (hP t i ht) (hfirst b hb))]
      exact hQ t ht
    · exact ih hrest hi (hP t a ht)

theorem groupIds_sorted : groupIds.Pairwise (· < ·) := by decide

/-- The lost reds that START meets, A first: the last of them gives the cause (R139, R163, R164). -/
theorem redLossAtStart_lost {s : State} (hflash : cfgRedLossFlash s.cfg = true) (hmode : s.seq.mode = .start)
    (hred : ∀ g : GroupId, s.groups[g].kind = .unused ∨
      s.groups[g].aspect = .red ∧ s.groups[g].withheld = false ∧ s.groups[g].gain = none)
    {g : GroupId} (hlost : s.groups[g].redStatus = .lost) (hlast : ∀ j : GroupId, g < j → s.groups[j].redStatus ≠ .lost) :
    RedLostAt s s.redLossAtStart ∧ RedLossCause g s.redLossAtStart := by
  unfold State.redLossAtStart
  rw [if_pos hflash]
  have hgroups (t : State) (ht : t = s ∨ RedLostAt s t) : t.groups = s.groups := by
    rcases ht with rfl | ht
    · rfl
    · exact ht.groups
  have hstep (t : State) (a : GroupId) (ht : t = s ∨ RedLostAt s t) :
      RedLostAt s (t.controlled .redLoss (BitVec.ofNat 8 a.val)) ∧ RedLossCause a (t.controlled .redLoss (BitVec.ofNat 8 a.val)) := by
    rcases ht with rfl | ht
    · exact controlled_of_start hmode hred a
    · exact controlled_of_redLost ht a
  refine foldl_last (P := fun t => t = s ∨ RedLostAt s t) (Q := fun t => RedLostAt s t ∧ RedLossCause g t) (i := g)
    (fun t a ht => ?_) (fun t ht => ?_) (fun t a ht ha => ?_) groupIds_sorted (mem_groupIds g) (.inl rfl)
  · split
    · exact .inr (hstep t a ht).1
    · exact ht
  · rw [if_pos (by rw [hgroups t ht]; exact hlost)]
    exact hstep t g ht
  · rw [if_neg (by rw [hgroups t ht]; exact hlast a ha)]

end Sys2Proof.Machine
end

section
/-! PROOFS. The events of DRIVE_EN and of the mains put together (R93, R94, R96, R97, R125, R181). -/

namespace Sys2Proof.Machine

-- One declaration at a time, as in the tests: declarations that wait for one another each hold a thread with its stack.
set_option Elab.async false

open Sys2Proof.Safety

/-! ### The rise -/

/-- DRIVE_EN high, DRIVE_OFF cleared (R97). -/
def State.switchedOn (s : State) : State := { s with drive := { s.drive with driveEn := true } }.clear .driveOff 255

theorem driveRise_of_empty {s : State} (h : s.mgmt.active = none) :
    s.driveRise = s.switchedOn.shift .dark (s.switchedOn.causeOnly .configEmpty) := by
  have hempty : cfgEmpty s.switchedOn.cfg = true := by
    show s.mgmt.active.isNone = true
    rw [h]
    rfl
  exact if_pos hempty

theorem not_cfgEmpty_switchedOn {s : State} (h : s.mgmt.active ≠ none) : ¬ cfgEmpty s.switchedOn.cfg = true := by
  show ¬ s.mgmt.active.isNone = true
  simpa using h

theorem driveRise_of_latch {s : State} (h : s.mgmt.active ≠ none) (hlatch : s.fallback.latch = true) :
    s.driveRise = s.switchedOn.shift .dark (s.switchedOn.written .conflict s.switchedOn.fallback.cause.subject false) :=
  (if_neg (not_cfgEmpty_switchedOn h)).trans (if_pos hlatch)

theorem driveRise_of_start {s : State} (h : s.mgmt.active ≠ none) (hlatch : s.fallback.latch = false) :
    s.driveRise = (s.switchedOn.startEntered (s.switchedOn.causeOnly .none)).redLossAtStart :=
  (if_neg (not_cfgEmpty_switchedOn h)).trans (if_neg (by rw [Bool.not_eq_true]; exact hlatch))

theorem driveRise_control (s : State) : Control s.switchedOn s.driveRise := by
  unfold State.driveRise
  dsimp only
  split
  · exact shift_control _ _ _
  · split
    · exact shift_control _ _ _
    · exact enterStart_control _ _

/-- DRIVE_OFF stays cleared (R97). -/
theorem driveRise_inactive (s : State) : Inactive .driveOff 255 s.driveRise := by
  have hcleared : Inactive .driveOff 255 s.switchedOn := clear_inactive _ _ _
  unfold State.driveRise
  dsimp only
  split
  · exact shift_inactive hcleared (by decide) _ _
  · split
    · exact shift_inactive hcleared (by decide) _ _
    · rw [enterStart_eq]
      exact redLossAtStart_inactive (startEntered_inactive hcleared (by decide) _) (by decide)

/-- The groups at the entry to START are those of SHOW_RED. -/
theorem startEntered_shows (s : State) (f : Fallback) : Shows .red .red s (s.switchedOn.startEntered f) := by
  refine Shows.congr (showAll_shows s .red .red) rfl rfl ?_
  rw [startEntered_groups]
  rfl

theorem startEntered_cfg (s : State) (f : Fallback) : (s.startEntered f).cfg = s.cfg := by
  have hcontrol := shift_control s.endNormal .start { f with failRed := .none }
  exact congrArg Management.active hcontrol.mgmt

/-- The entry to START that meets no lost red to hand over (R102). -/
theorem driveRise_started {s : State} (h : s.mgmt.active ≠ none) (hlatch : s.fallback.latch = false)
    (hlost : cfgRedLossFlash s.cfg = false ∨ ∀ g : GroupId, s.groups[g].redStatus ≠ .lost) :
    s.driveRise = s.switchedOn.startEntered (s.switchedOn.causeOnly .none) := by
  rw [driveRise_of_start h hlatch]
  refine redLossAtStart_eq_self (hlost.imp (fun hflash => ?_) (fun hnone g => ?_))
  · rw [startEntered_cfg]
    exact hflash
  · rw [startEntered_redStatus]
    exact hnone g

/-- The entry to START that meets lost reds under red-loss action FLASH (R139). -/
theorem driveRise_redLost {s : State} (h : s.mgmt.active ≠ none) (hlatch : s.fallback.latch = false)
    (hflash : cfgRedLossFlash s.cfg = true) {g : GroupId} (hlost : s.groups[g].redStatus = .lost)
    (hlast : ∀ j : GroupId, g < j → s.groups[j].redStatus ≠ .lost) :
    RedLostAt (s.switchedOn.startEntered (s.switchedOn.causeOnly .none)) s.driveRise ∧ RedLossCause g s.driveRise := by
  rw [driveRise_of_start h hlatch]
  refine redLossAtStart_lost ?_ (startEntered_inStart _ _).1 (startEntered_red _ _) ?_ (fun j hj => ?_)
  · rw [startEntered_cfg]
    exact hflash
  · rw [startEntered_redStatus]
    exact hlost
  · rw [startEntered_redStatus]
    exact hlast j hj

/-! ### The commands -/

theorem exec_flashPhaseEdge_of_due {s : State} {dt : Nat} (hphase : s.phase = .notInReset)
    (hdue : s.drive.flashSince + 500000 ≤ s.now + dt) :
    exec (.flashPhaseEdge dt) s = .next ({ elapse dt s with drive := { s.drive with
      flashOn := !s.drive.flashOn, flashSince := s.drive.flashSince + 500000 } }.settle) := by
  show execFlashPhaseEdge dt s = _
  rw [execFlashPhaseEdge, live_next _ _ _ hphase]
  exact congrArg Host.Outcome.next (if_pos hdue)

theorem exec_driveEnFall_eq {s : State} (hphase : s.phase = .notInReset) (p : PinTime) :
    exec (.driveEnFall p) s =
      .next (if ((elapse p.dt s).pinAt false p.held).drive.driveEn && ((elapse p.dt s).pinAt false p.held).pinQualified then
        ((elapse p.dt s).pinAt false p.held).driveFall.settle else (elapse p.dt s).pinAt false p.held) := by
  show execDriveEnFall p s = _
  rw [execDriveEnFall, live_next _ _ _ hphase]

theorem exec_driveEnRise_eq {s : State} (hphase : s.phase = .notInReset) (p : PinTime) :
    exec (.driveEnRise p) s =
      .next (if !((elapse p.dt s).pinAt true p.held).drive.driveEn && ((elapse p.dt s).pinAt true p.held).pinQualified then
        ((elapse p.dt s).pinAt true p.held).driveRise.settle else (elapse p.dt s).pinAt true p.held) := by
  show execDriveEnRise p s = _
  rw [execDriveEnRise, live_next _ _ _ hphase]

theorem exec_mainsLost_of_due {s : State} {dt : Nat} (hphase : s.phase = .notInReset) (hmains : s.scanner.mains = .present)
    (hdue : s.scanner.lastMark + 50000 ≤ s.now + dt) : exec (.mainsLost dt) s = .next (elapse dt s).loseMains.settle := by
  show execMainsLost dt s = _
  rw [execMainsLost, live_next _ _ _ hphase, elapse_scanner, hmains]
  exact congrArg Host.Outcome.next (if_pos hdue)

end Sys2Proof.Machine
end

section
/-! PROOFS. DRIVE_EN, the flash phase and the mains, event by event. -/

namespace Sys2Proof.Machine

-- One declaration at a time, as in the tests: declarations that wait for one another each hold a thread with its stack.
set_option Elab.async false

open Sys2Proof.Safety

theorem pinQualified_iff (s : State) (level : Bool) (lasted : Nat) :
    (s.pinAt level lasted).pinQualified = true ↔
      (if s.drive.pin.level = level then s.drive.pin.since else max s.drive.pin.seen (s.now - lasted)) + 1000 ≤ s.now :=
  decide_eq_true_iff

theorem driveFall_groups (s : State) (g : GroupId) (h : s.driveFall.groups[g].kind ≠ .unused) :
    s.driveFall.groups[g].aspect = .dark ∧ s.driveFall.groups[g].gain = none := by
  rw [driveFall_eq, raise_groups] at h ⊢
  exact toDark_groups _ _ g h

theorem driveRise_drive (s : State) : s.driveRise.drive.pin = s.drive.pin ∧ s.driveRise.drive.driveEn = true := by
  rw [(driveRise_control s).drive]
  exact ⟨rfl, rfl⟩

/-- Settles O48, event by event: the outputs by `applyLost_record` and `applyTargets_record`, the mode by the laws of the fall and of the
rise. -/
theorem driveAndMainsEvents : Obligations.DriveAndMainsEvents := by
  refine ⟨fun s n hlost => ?atOnce, fun dt lasted s hphase => ⟨exec_flashPhaseEdge_of_due hphase, fun hnot => ?noFall, fun hnot => ?noRise,
    fun hhigh hheld hevidence => ?fall, fun hlow hheld => ?rise, fun hmains hdue => ?mains⟩⟩
  case atOnce =>
    refine ⟨fun hsame => (applyLost_record hlost n).trans (if_pos hsame), fun hdiffers => ?_⟩
    have hrecord := (applyLost_record hlost n).trans (if_neg hdiffers)
    rw [hrecord]
    refine ⟨toward_applied _ _ _, (toward_changedAt _ _ _).trans (if_neg hdiffers), toward_lockout _ _ _,
      fun b hb hinstant => congrArg some (standing_of_same hb hinstant), fun hother => congrArg some (standing_of_other hother)⟩
  case noFall =>
    refine (exec_driveEnFall_eq hphase ⟨dt, lasted⟩).trans (congrArg Host.Outcome.next (if_neg ?_))
    rw [Bool.and_eq_true, pinQualified_iff]
    rintro ⟨hen, hqualified⟩
    rcases hnot with hoff | hshort
    · exact absurd (hoff.symm.trans hen) (by decide)
    · exact absurd hqualified (Nat.not_le.mpr hshort)
  case noRise =>
    refine (exec_driveEnRise_eq hphase ⟨dt, lasted⟩).trans (congrArg Host.Outcome.next (if_neg ?_))
    rw [Bool.and_eq_true, pinQualified_iff, Bool.not_eq_true']
    rintro ⟨hen, hqualified⟩
    rcases hnot with hon | hshort
    · exact absurd (hon.symm.trans hen) (by decide)
    · exact absurd hqualified (Nat.not_le.mpr hshort)
  case fall =>
    have hfalls : exec (.driveEnFall ⟨dt, lasted⟩) s = .next ((elapse dt s).pinAt false lasted).driveFall.settle := by
      refine (exec_driveEnFall_eq hphase ⟨dt, lasted⟩).trans (congrArg Host.Outcome.next (if_pos ?_))
      rw [Bool.and_eq_true, pinQualified_iff]
      exact ⟨hhigh, hheld⟩
    have hcomputed : EvidenceComputed ((elapse dt s).pinAt false lasted) := hevidence
    obtain ⟨hpin, hdriveEn, happlied⟩ := driveFall_drive ((elapse dt s).pinAt false lasted)
    obtain ⟨hmode, htransfer⟩ := driveFall_mode hcomputed
    refine ⟨_, hfalls, hpin, hdriveEn, happlied, hmode, htransfer, ?_, driveFall_groups _,
      fun hkept => (driveFall_causeKept hcomputed hkept).1, fun hcause hlatch => ?_⟩
    · by_cases hkept : s.fallback.cause.cause = .configEmpty ∨ s.fallback.latch = true
      · exact (driveFall_causeKept hcomputed hkept).2
      · obtain ⟨hcause, hlatch⟩ := not_or.mp hkept
        exact (driveFall_causeWritten hcomputed hcause (Bool.not_eq_true _ ▸ hlatch)).2.2
    · obtain ⟨hwritten, hlast, -⟩ := driveFall_causeWritten hcomputed hcause hlatch
      exact ⟨hwritten, hlast⟩
  case rise =>
    have hrises : exec (.driveEnRise ⟨dt, lasted⟩) s = .next ((elapse dt s).pinAt true lasted).driveRise.settle := by
      refine (exec_driveEnRise_eq hphase ⟨dt, lasted⟩).trans (congrArg Host.Outcome.next (if_pos ?_))
      rw [Bool.and_eq_true, pinQualified_iff, Bool.not_eq_true']
      exact ⟨hlow, hheld⟩
    obtain ⟨hpin, hdriveEn⟩ := driveRise_drive ((elapse dt s).pinAt true lasted)
    refine ⟨_, hrises, hpin, hdriveEn, driveRise_inactive _, fun hempty => ?_,
      fun hactive hlatch => ?_, fun hactive hlatch hnone => ?_, fun g hactive hlatch hflash hlost hlast => ?_⟩
    · rw [driveRise_of_empty (s := (elapse dt s).pinAt true lasted) hempty, (shift_mode _ _ _).1, (shift_mode _ _ _).2]
      exact ⟨rfl, rfl, rfl⟩
    · rw [driveRise_of_latch (s := (elapse dt s).pinAt true lasted) hactive hlatch, (shift_mode _ _ _).1, (shift_mode _ _ _).2]
      exact ⟨rfl, rfl, rfl⟩
    · rw [driveRise_started (s := (elapse dt s).pinAt true lasted) hactive hlatch hnone, startEntered_fallback, startEntered_seq]
      exact ⟨startEntered_inStart _ _, rfl, rfl, rfl,
        Shows.congr (startEntered_shows ((elapse dt s).pinAt true lasted) _) rfl rfl rfl⟩
    · obtain ⟨hred, hcause⟩ := driveRise_redLost (s := (elapse dt s).pinAt true lasted) hactive hlatch hflash hlost hlast
      obtain ⟨hwritten, hkept⟩ := hcause
      have hclock : ((elapse dt s).pinAt true lasted).driveRise.seq.clock = s.seq.clock := by
        rw [hred.clock, startEntered_seq]
        rfl
      rw [hclock] at hwritten
      exact ⟨hred.control, hred.waiting, hwritten, hkept,
        Shows.congr (startEntered_shows ((elapse dt s).pinAt true lasted) _) rfl rfl hred.groups⟩
  case mains =>
    obtain ⟨hleak, hprobe⟩ := loseMains_untested (elapse dt s)
    exact ⟨_, exec_mainsLost_of_due hphase hmains hdue, loseMains_mains _, hleak,
      fun n => ⟨hprobe n, loseMains_applied (elapse dt s) n⟩⟩

end Sys2Proof.Machine
end

section
/-! PROOFS. Leakage tests and VOLTAGE readings of a core: which core is tested, what a result and a reading make of its record (R147 to
R152). -/

namespace Sys2Proof.Machine

-- One declaration at a time, as in the tests: declarations that wait for one another each hold a thread with its stack.
set_option Elab.async false

/-! ### The first of a sorted list -/

/-- In a list that `rank` sorts strictly, the search finds the one of the lowest rank. -/
theorem find?_of_least {α : Type} {rank : α → Nat} {p : α → Bool} {x : α} : ∀ {l : List α},
    l.Pairwise (fun a b => rank a < rank b) → x ∈ l → p x = true → (∀ y, p y = true → rank x ≤ rank y) → l.find? p = some x
  | [], _, hmem, _, _ => absurd hmem List.not_mem_nil
  | a :: l, hsorted, hmem, hx, hleast => by
    obtain ⟨hhead, htail⟩ := List.pairwise_cons.mp hsorted
    rcases List.mem_cons.mp hmem with rfl | hlater
    · exact List.find?_cons_of_pos hx
    · have hskip : ¬ p a = true := fun ha => absurd (hleast a ha) (Nat.not_le.mpr (hhead x hlater))
      rw [List.find?_cons_of_neg hskip]
      exact find?_of_least htail hlater hx hleast

/-! ### The cores from the pointer -/

/-- How far a core is ahead of the pointer in cyclic order (R150). -/
def coresAhead (p n : CircuitId) : Nat := (n.val + 24 - p.val) % 24

theorem coresAhead_of_le {p n : CircuitId} (h : p ≤ n) : coresAhead p n = n.val - p.val := by
  unfold coresAhead
  have := Fin.le_def.mp h
  omega

theorem coresAhead_of_lt {p n : CircuitId} (h : n < p) : coresAhead p n = n.val + 24 - p.val := by
  unfold coresAhead
  have := Fin.lt_def.mp h
  omega

theorem mem_coresFrom (p n : CircuitId) : n ∈ coresFrom p := by
  unfold coresFrom
  rcases Nat.lt_or_ge n.val p.val with h | h
  · exact List.mem_append_right _ (List.mem_filter.mpr ⟨mem_circuitIds n, decide_eq_true h⟩)
  · exact List.mem_append_left _ (List.mem_filter.mpr ⟨mem_circuitIds n, decide_eq_true h⟩)

theorem circuitIds_sorted : circuitIds.Pairwise (· < ·) := by decide

/-- The cores at and after the pointer come by rising distance, and before those behind it. -/
theorem coresFrom_sorted (p : CircuitId) : (coresFrom p).Pairwise (fun a b => coresAhead p a < coresAhead p b) := by
  simp only [coresFrom, List.pairwise_append, List.mem_filter, decide_eq_true_eq]
  refine ⟨?ahead, ?behind, ?across⟩
  case ahead =>
    refine (circuitIds_sorted.filter _).imp_of_mem fun {a b} ha hb hab => ?_
    simp only [List.mem_filter, decide_eq_true_eq] at ha hb
    rw [coresAhead_of_le ha.2, coresAhead_of_le hb.2]
    exact Nat.sub_lt_sub_right ha.2 hab
  case behind =>
    refine (circuitIds_sorted.filter _).imp_of_mem fun {a b} ha hb hab => ?_
    simp only [List.mem_filter, decide_eq_true_eq] at ha hb
    rw [coresAhead_of_lt ha.2, coresAhead_of_lt hb.2]
    have hrises : a.val < b.val := hab
    omega
  case across =>
    rintro a ⟨-, ha⟩ b ⟨-, hb⟩
    rw [coresAhead_of_le ha, coresAhead_of_lt hb]
    omega

/-! ### Eligible cores -/

theorem steadilyOff_iff (s : State) (n : CircuitId) :
    s.steadilyOff n = true ↔ s.commanded n = .off ∧ s.drive.records[n].applied = false ∧
      s.cable.cores[n].offSince + 10 ≤ s.timeBase ∧ s.scanner.mains = .present := by
  simp [State.steadilyOff, and_assoc]

theorem spaced_iff (s : State) (last : Option Nat) (wait : Nat) :
    s.spaced last wait = true ↔ ∀ t, last = some t → t + wait ≤ s.timeBase := by
  cases last <;> simp [State.spaced]

/-- A core is eligible for a leakage test as R150 says. -/
theorem leakEligible_iff (s : State) (n : CircuitId) :
    s.leakEligible n = true ↔ cfgCoreEnabled s.cfg n = true ∧
      (s.cable.cores[n].state = .sound ∨ s.cable.cores[n].state = .leaky) ∧ s.commanded n = .off ∧
      s.drive.records[n].applied = false ∧ s.cable.cores[n].offSince + 10 ≤ s.timeBase ∧ s.scanner.mains = .present ∧
      s.cable.cores[n].probe = none ∧ ∀ t, s.cable.cores[n].lastLeakTest = some t → t + 300 ≤ s.timeBase := by
  simp only [State.leakEligible, Bool.and_eq_true, Bool.or_eq_true, decide_eq_true_eq, Option.isNone_iff_eq_none, steadilyOff_iff,
    spaced_iff, and_assoc]

/-! ### The start of a test -/

/-- A leakage test starts on core n: its instant is recorded, and the pointer goes past the core (R150). -/
def State.leakTestOn (s : State) (n : CircuitId) : State :=
  { s with
    cable := { s.cable with
      cores := s.cable.cores.set n.val { s.cable.cores[n] with lastLeakTest := some s.stamp }
      leakPointer := n + 1 }
    scanner := { s.scanner with leakTest := some (n, s.now) } }

theorem exec_leakageTestStart_inFlight {s : State} {dt : Nat} (hphase : s.phase = .notInReset) (htest : s.scanner.leakTest ≠ none) :
    exec (.leakageTestStart dt) s = .next (elapse dt s) := by
  obtain ⟨test, htest⟩ := Option.ne_none_iff_exists'.mp htest
  show execLeakageTestStart dt s = _
  rw [execLeakageTestStart, live_next _ _ _ hphase, elapse_scanner, htest]

theorem exec_leakageTestStart_idle {s : State} {dt : Nat} (hphase : s.phase = .notInReset) (htest : s.scanner.leakTest = none) :
    exec (.leakageTestStart dt) s =
      .next (((coresFrom s.cable.leakPointer).find? (elapse dt s).leakEligible).elim (elapse dt s) (elapse dt s).leakTestOn) := by
  show execLeakageTestStart dt s = _
  rw [execLeakageTestStart, live_next _ _ _ hphase, elapse_scanner, elapse_cable, htest]
  cases (coresFrom s.cable.leakPointer).find? (elapse dt s).leakEligible <;> rfl

theorem exec_leakageTestStart_noneEligible {s : State} {dt : Nat} (hphase : s.phase = .notInReset)
    (hnone : ∀ m, ¬ (elapse dt s).leakEligible m = true) : exec (.leakageTestStart dt) s = .next (elapse dt s) := by
  by_cases htest : s.scanner.leakTest = none
  · rw [exec_leakageTestStart_idle hphase htest, List.find?_eq_none.mpr fun m _ => hnone m, Option.elim_none]
  · exact exec_leakageTestStart_inFlight hphase htest

theorem exec_leakageTestStart_eligible {s : State} {dt : Nat} {n : CircuitId} (hphase : s.phase = .notInReset)
    (htest : s.scanner.leakTest = none) (hn : (elapse dt s).leakEligible n = true)
    (hfirst : ∀ m, (elapse dt s).leakEligible m = true → coresAhead s.cable.leakPointer n ≤ coresAhead s.cable.leakPointer m) :
    exec (.leakageTestStart dt) s = .next ((elapse dt s).leakTestOn n) := by
  rw [exec_leakageTestStart_idle hphase htest, find?_of_least (coresFrom_sorted _) (mem_coresFrom _ n) hn hfirst,
      Option.elim_some]

/-! ### The result of a test -/

/-- The core has this record and no leakage test is in flight. -/
def CoreSet (n : CircuitId) (r : CoreRecord) (s : State) : Prop := s.scanner.leakTest = none ∧ s.cable.cores[n] = r

theorem Control.coreSet {s t : State} {n : CircuitId} {r : CoreRecord} (h : Control s t) (hset : CoreSet n r s) : CoreSet n r t := by
  rw [CoreSet, h.scanner, h.cable]
  exact hset

theorem cancelLeak_of_none {x : Scanner} (h : x.leakTest = none) (n : CircuitId) : x.cancelLeak n = x := by
  simp only [Scanner.cancelLeak, h]

theorem coreBroken_coreSet {s : State} {m : CircuitId} {r : CoreRecord} (h : CoreSet m r s) (n : CircuitId) :
    CoreSet m r (s.coreBroken n) := by
  unfold State.coreBroken
  split
  · exact h
  · exact h
  all_goals exact ((alarmEvents_control _ _ _).trans (refreshRed_control _)).coreSet (s := s.setCircuit n _) h

theorem coreMended_coreSet {s : State} {m : CircuitId} {r : CoreRecord} (h : CoreSet m r s) (n : CircuitId) :
    CoreSet m r (s.coreMended n) := by
  unfold State.coreMended
  split
  · exact (refreshRed_control _).coreSet (s := s.setCircuit n _) h
  all_goals exact h

/-- What follows a core's new record leaves the record, and starts no leakage test. -/
theorem moveCore_coreSet {s : State} (h : s.scanner.leakTest = none) (n : CircuitId) (r : CoreRecord) :
    CoreSet n r (s.moveCore n r) :=
  moveCore_keeps (CoreSet n r) ⟨h, by simp⟩
    (fun t ht => by
      rw [cancelLeak_of_none ht.1]
      exact ht)
    (fun t l => (alarmEvents_control t _ l).coreSet) (fun _ ht => coreBroken_coreSet ht n) (fun _ ht => coreMended_coreSet ht n)
    (fun t => (refreshEvidence_control t).coreSet)

theorem exec_leakageResult_of_due {s : State} {dt since current : Nat} {n : CircuitId} (hphase : s.phase = .notInReset)
    (htest : s.scanner.leakTest = some (n, since)) (hdue : since + 100000 ≤ s.now + dt) :
    exec (.leakageResult dt current) s = .next (({ elapse dt s with scanner := { s.scanner with leakTest := none } }).moveCore n
      (s.cable.cores[n].leaked (cfgLeakLimit s.cfg n ≤ min 1000 current) (min 1000 current))) := by
  show execLeakageResult dt current s = _
  rw [execLeakageResult, live_next _ _ _ hphase, elapse_scanner, htest]
  exact congrArg Host.Outcome.next (if_pos hdue)

theorem exec_leakageResult_of_early {s : State} {dt since : Nat} {n : CircuitId} (hphase : s.phase = .notInReset)
    (htest : s.scanner.leakTest = some (n, since)) (hearly : s.now + dt < since + 100000) (current : Nat) :
    exec (.leakageResult dt current) s = .next (elapse dt s) := by
  show execLeakageResult dt current s = _
  rw [execLeakageResult, live_next _ _ _ hphase, elapse_scanner, htest]
  exact congrArg Host.Outcome.next (if_neg (Nat.not_le.mpr hearly))

theorem exec_leakageResult_of_none {s : State} {dt : Nat} (hphase : s.phase = .notInReset) (htest : s.scanner.leakTest = none)
    (current : Nat) : exec (.leakageResult dt current) s = .next (elapse dt s) := by
  show execLeakageResult dt current s = _
  rw [execLeakageResult, live_next _ _ _ hphase, elapse_scanner, htest]

/-! ### What a result or a reading makes of a record -/

theorem min_two_eq_iff (k : Nat) : min 2 k = 2 ↔ 2 ≤ k := by omega

/-- A result at or above the limit: the second in a row makes a SOUND core LEAKY (R152). -/
theorem leaked_true (k : CoreRecord) (current : Nat) :
    k.leaked true current =
      if k.state = .sound ∧ 2 ≤ k.leak + 1 then { k with lastLeakage := current, state := .leaky, leak := 0, cleanLeak := 0 }
      else { k with lastLeakage := current, leak := min 2 (k.leak + 1), cleanLeak := 0 } := by
  simp only [CoreRecord.leaked, ↓reduceIte, Bool.and_eq_true, decide_eq_true_eq, min_two_eq_iff]

/-- A result below the limit: the second in a row makes a LEAKY core SOUND (R152). -/
theorem leaked_false (k : CoreRecord) (current : Nat) :
    k.leaked false current =
      if k.state = .leaky ∧ 2 ≤ k.cleanLeak + 1 then
        { k with lastLeakage := current, state := .sound, leak := 0, cleanLeak := 0, missTotal := 0 }
      else { k with lastLeakage := current, cleanLeak := min 2 (k.cleanLeak + 1), leak := 0 } := by
  simp only [CoreRecord.leaked, Bool.false_eq_true, ↓reduceIte, Bool.and_eq_true, decide_eq_true_eq, min_two_eq_iff]

/-- A reading below the limit breaks the run of those above it (R148). -/
theorem voltage_false_of_normal {k : CoreRecord} (h : k.state ≠ .crossFeed) : k.voltage false = { k with cross := 0 } := by
  unfold CoreRecord.voltage
  split
  next hfed => exact absurd hfed h
  all_goals rfl

/-- The second reading in a row at or above the limit is CROSS_FEED (R148). -/
theorem voltage_true_of_normal {k : CoreRecord} (h : k.state ≠ .crossFeed) :
    k.voltage true = if 2 ≤ k.cross + 1
      then { k with
        state := .crossFeed, cross := 0, quiet := 0, valid := 0, miss := 0, leak := 0, cleanLeak := 0, probe := none }
      else { k with cross := k.cross + 1 } := by
  unfold CoreRecord.voltage
  split
  next hfed => exact absurd hfed h
  all_goals rfl

/-- In CROSS_FEED fifty readings in a row below the limit are counted, and end it (R149). -/
theorem voltage_of_crossFeed {k : CoreRecord} (h : k.state = .crossFeed) (high : Bool) :
    k.voltage high = if high then { k with quiet := 0 }
      else if 50 ≤ k.quiet + 1 then { k with state := .untested, quiet := 0 } else { k with quiet := k.quiet + 1 } := by
  simp only [CoreRecord.voltage, h]

/-- Settles O50: the core tested by `find?_of_least` over the cores in their order from the pointer, the result by `moveCore_coreSet`, the
records by the laws of `leaked` and `voltage`. -/
theorem leakageAndCrossFeed : Obligations.LeakageAndCrossFeed := by
  refine ⟨fun dt s hphase => ⟨?notStarted, fun n htest hn hfirst => ?started, fun n since current htest hdue => ?result,
    fun current hnot => ?noResult⟩, fun k current => ⟨fun hsound => ?toLeaky, fun hleaky => ?toSound, fun hsound => ?staysSound,
    fun hleaky => ?staysLeaky, fun hnormal => ⟨voltage_false_of_normal hnormal, voltage_true_of_normal hnormal⟩,
    fun hfed => ⟨voltage_of_crossFeed hfed true, voltage_of_crossFeed hfed false⟩⟩⟩
  case notStarted =>
    rintro (htest | hnone)
    · exact exec_leakageTestStart_inFlight hphase htest
    · exact exec_leakageTestStart_noneEligible hphase fun m hm => hnone m ((leakEligible_iff _ m).mp hm)
  case started =>
    exact exec_leakageTestStart_eligible hphase htest ((leakEligible_iff _ n).mpr hn)
      fun m hm => hfirst m ((leakEligible_iff _ m).mp hm)
  case result =>
    exact ⟨exec_leakageResult_of_due hphase htest hdue, moveCore_coreSet rfl n _⟩
  case noResult =>
    obtain htest | ⟨n, since, htest, hearly⟩ := hnot
    · exact exec_leakageResult_of_none hphase htest current
    · exact exec_leakageResult_of_early hphase htest hearly current
  case toLeaky =>
    rw [leaked_true]
    split
    next hsecond => rw [if_pos hsecond.2]
    next hfirst =>
      have hone : ¬ 2 ≤ k.leak + 1 := fun h => hfirst ⟨hsound, h⟩
      rw [if_neg hone, Nat.min_eq_right (Nat.le_of_not_le hone)]
  case toSound =>
    rw [leaked_false]
    split
    next hsecond => rw [if_pos hsecond.2]
    next hfirst =>
      have hone : ¬ 2 ≤ k.cleanLeak + 1 := fun h => hfirst ⟨hleaky, h⟩
      rw [if_neg hone, Nat.min_eq_right (Nat.le_of_not_le hone)]
  case staysSound =>
    rw [leaked_false, if_neg (by simp [hsound])]
  case staysLeaky =>
    rw [leaked_true, if_neg (by simp [hleaky])]

end Sys2Proof.Machine
end

section
/-! PROOFS. What the Ring Port Unit and the table space do beside the junction, and of which operations on the junction the arrival of a
frame is made: a relation that those operations satisfy holds between the states before and after every command of the ring. -/

namespace Sys2Proof.Machine

-- One declaration at a time, as in the tests: declarations that wait for one another each hold a thread with its stack.
set_option Elab.async false

open Sys2Proof.Safety

/-! ### Operations beside the junction -/

/-- Nothing of the junction differs: only time, the Ring Port Unit, the classifier, the store, the alarms, and the table space but for the
active configuration and its activation. -/
structure Aside (s t : State) : Prop where
  active : t.mgmt.active = s.mgmt.active := by rfl
  activation : t.mgmt.activation = s.mgmt.activation := by rfl
  demand : t.demand = s.demand := by rfl
  seq : t.seq = s.seq := by rfl
  groups : t.groups = s.groups := by rfl
  drive : t.drive = s.drive := by rfl
  scanner : t.scanner = s.scanner := by rfl
  circuits : t.circuits = s.circuits := by rfl
  cable : t.cable = s.cable := by rfl
  fallback : t.fallback = s.fallback := by rfl

theorem Aside.refl (s : State) : Aside s s := {}

theorem Aside.trans {s t u : State} (h : Aside s t) (k : Aside t u) : Aside s u where
  active := k.active.trans h.active
  activation := k.activation.trans h.activation
  demand := k.demand.trans h.demand
  seq := k.seq.trans h.seq
  groups := k.groups.trans h.groups
  drive := k.drive.trans h.drive
  scanner := k.scanner.trans h.scanner
  circuits := k.circuits.trans h.circuits
  cable := k.cable.trans h.cable
  fallback := k.fallback.trans h.fallback

/-- An operation that is carried out or not. -/
theorem Aside.ite {s t u : State} {p : Prop} [Decidable p] (h : Aside s t) (k : Aside s u) : Aside s (if p then t else u) := by
  split
  · exact h
  · exact k

/-! ### What an arriving frame is made of -/

/-- The relation holds of what happens beside the junction and of every operation on the junction that an arriving frame brings. -/
structure FrameOps (R : State → State → Prop) : Prop where
  trans : ∀ {s t u : State}, R s t → R t u → R s u
  aside : ∀ {s t : State}, Aside s t → R s t
  raiseLines : ∀ (s : State) (word : Half), R s (s.raiseLines word)
  callCommand : ∀ (s : State) (payload : List Byte), R s (s.callCommand payload).2
  restartSupervision : ∀ s : State, R s s.restartSupervision
  clearProving : ∀ (s : State) (n : CircuitId), R s (s.clearProving n)
  coreRetest : ∀ (s : State) (n : CircuitId), R s (s.coreRetest n)
  settle : ∀ s : State, R s s.settle

section

variable {R : State → State → Prop}

theorem FrameOps.refl (h : FrameOps R) (s : State) : R s s := h.aside (.refl s)

theorem FrameOps.foldl (h : FrameOps R) {α : Type} {f : State → α → State} (hf : ∀ s a, R s (f s a)) (l : List α) (s : State) :
    R s (l.foldl f s) :=
  foldl_keeps (R s) f (fun t a ht => h.trans ht (hf t a)) l s (h.refl s)

/-! ### LOAD -/

theorem startMaskWrite_aside (s : State) : Aside s s.startMaskWrite := by
  unfold State.startMaskWrite
  split
  all_goals exact {}

theorem protect_aside (s : State) (which bits : Half) : Aside s (s.protect which bits) := by
  unfold State.protect
  dsimp only
  refine .ite {} (.trans ?_ (startMaskWrite_aside _))
  exact {}

theorem stageFlagClear_aside (s : State) (bits : Half) : Aside s (s.stageFlagClear bits) := {}

/-- A control that acts on the byte that a LOAD carries for it, if any. -/
theorem FrameOps.of_byte (h : FrameOps R) {s : State} {f : Byte → State} (hf : ∀ b, R s (f b)) (o : Option Byte) :
    R s (match o with | none => s | some b => f b) := by
  cases o with
  | none => exact h.refl s
  | some b => exact hf b

/-- The controls in address order: those of the table space and the alarms, then CLEAR_PROVING and CORE_RETEST, then the last two. -/
theorem FrameOps.loadControls (h : FrameOps R) (s : State) (p : Span) (data : List Byte) : R s (s.loadControls p data) := by
  have hproving (t : State) (b : Byte) : R t (t.clearProvingAll b) := h.trans (h.foldl h.clearProving _ t) (h.settle _)
  have hretest (t : State) (b : Byte) : R t (t.coreRetestAll b) := h.trans (h.foldl h.coreRetest _ t) (h.settle _)
  unfold State.loadControls
  dsimp only
  refine h.trans ?_ (h.aside (.ite (.refl _) (protect_aside _ _ _)))
  refine h.trans ?_ (h.aside (.ite {} (.refl _)))
  refine h.trans ?_ (h.of_byte (hretest _) _)
  refine h.trans ?_ (h.of_byte (hproving _) _)
  refine h.trans ?_ (h.of_byte (f := State.mgmtStatusClear _) (fun _ => h.aside {}) _)
  refine h.aside (.trans ?_ (stageFlagClear_aside _ _))
  refine .trans ?_ (.ite {} (.refl _))
  refine .trans ?_ (.ite {} (.refl _))
  exact .ite {} (.refl s)

theorem FrameOps.loadAct (h : FrameOps R) (s : State) (p : Span) (data : List Byte) : R s (s.loadAct p data).2 := by
  unfold State.loadAct
  split
  · exact h.aside {}
  · split
    · split
      · exact h.aside {}
      · refine h.trans (h.aside ?_) (h.loadControls _ p data)
        exact {}
    · exact h.loadControls s p data

theorem FrameOps.loadAnswer (h : FrameOps R) (s : State) (payload : List Byte) : R s (s.loadAnswer payload).2 := by
  unfold State.loadAnswer
  split
  · exact h.refl s
  · split
    · exact h.refl s
    · split
      · exact h.refl s
      · split
        · exact h.aside {}
        · exact h.loadAct s _ _

/-! ### The arrival of a frame -/

theorem FrameOps.callAnswer (h : FrameOps R) (s : State) (payload : List Byte) : R s (s.callAnswer payload).2 := by
  unfold State.callAnswer callDone
  split
  · exact h.trans (h.trans (h.callCommand s payload) (h.restartSupervision _)) (h.settle _)
  · exact h.callCommand s payload

theorem echoAnswer_aside (s : State) (f : Frame) : Aside s (s.echoAnswer f).2 := by
  unfold State.echoAnswer
  split
  · exact {}
  · exact .refl s

theorem FrameOps.manage (h : FrameOps R) (s : State) (f : Frame) : R s (s.manage f).2 := by
  unfold State.manage
  split
  · exact h.refl s
  · split
    · exact h.loadAnswer s _
    · split
      · split
        · exact h.callAnswer s _
        · exact h.aside {}
      · exact h.aside (echoAnswer_aside s f)

theorem FrameOps.snoop (h : FrameOps R) (s : State) (f : Frame) (e : Nat) : R s (s.snoop f e) := by
  unfold State.snoop
  split
  · exact h.trans (h.raiseLines s _) (h.settle _)
  · exact h.refl s

theorem enqueue_aside (s : State) (q : QueuedFrame) : Aside s (s.enqueue q) := {}

theorem FrameOps.classify (h : FrameOps R) (s : State) (f : Frame) : R s (s.classify f) := by
  unfold State.classify
  split
  · exact h.aside {}
  · split
    · exact h.aside {}
    · split
      · split
        · exact h.trans (h.manage s f) (h.aside (enqueue_aside _ _))
        · exact h.aside (enqueue_aside s _)
      · split
        · exact h.aside (enqueue_aside s _)
        · exact h.trans (h.snoop s f _) (h.aside (enqueue_aside _ _))
        · exact h.aside {}

theorem countGood_aside (s : State) : Aside s s.countGood := by
  unfold State.countGood
  split
  · exact .ite {} {}
  · exact .refl s
  · exact .refl s

theorem FrameOps.goodFrame (h : FrameOps R) (s : State) (f : Frame) : R s (s.waiting.goodFrame f) := by
  have hwaiting : Aside s s.waiting := {}
  unfold State.goodFrame State.arrive
  refine h.trans (h.aside (hwaiting.trans (countGood_aside _))) ?_
  split
  · exact h.classify _ f
  · exact h.aside {}

theorem FrameOps.handOn (h : FrameOps R) (f : Frame) (s : State) : R s (s.handOn f) := by
  unfold State.handOn
  split
  · exact h.refl s
  all_goals
    split
    · exact h.goodFrame s f
    · exact h.refl s

/-! ### RING IN -/

theorem FrameOps.frameEnded (h : FrameOps R) (s : State) (bytes : List Byte) (bad : Bool) : R s (s.frameEnded bytes bad) := by
  unfold State.frameEnded
  split
  · exact h.aside {}
  · split
    · exact h.aside {}
    · exact h.goodFrame s _

theorem FrameOps.endMarker (h : FrameOps R) (s : State) : R s s.endMarker := by
  unfold State.endMarker
  split
  · exact h.refl s
  · exact h.frameEnded s _ _
  · exact h.aside {}

/-- The frame that a start marker ends is a bad one (R11). -/
theorem startMarker_aside (s : State) : Aside s s.startMarker := by
  have hopen (bytes : List Byte) : Aside s (s.frameEnded bytes true).frameStart := by
    obtain ⟨e, he⟩ := frameError_of_badSymbol bytes
    rw [frameEnded_of_error he]
    exact {}
  unfold State.startMarker
  split
  · exact .refl s
  all_goals
    split
    · exact hopen _
    · exact {}
    · exact {}

theorem enterDown_aside (s : State) : Aside s s.enterDown := {}

theorem onLine_aside (s : State) (f : LineRecord → LineRecord) : Aside s (s.onLine f) := {}

theorem markSeeking_aside (s : State) : Aside s s.markSeeking := by
  unfold State.markSeeking
  dsimp only
  split
  · exact onLine_aside s _
  · exact .ite (.ite {} {}) ((enterDown_aside s).trans (onLine_aside _ _))

theorem validMark_aside (s : State) : Aside s s.validMark := by
  unfold State.validMark
  dsimp only
  split
  · exact onLine_aside s _
  · exact markSeeking_aside s
  · exact onLine_aside s _

theorem invertedMarkCounted_aside (s : State) : Aside s s.invertedMarkCounted :=
  .ite (onLine_aside s _) ((onLine_aside s _).trans (validMark_aside _))

theorem symbol_aside (s : State) : Aside s s.symbol := {}

theorem dataByte_aside (s : State) (b : Byte) : Aside s (s.dataByte b) := by
  unfold State.dataByte
  split
  · exact .refl s
  · exact {}
  · exact .ite {} {}

/-! ### The commands of the ring -/

/-- Whatever state a command ends in is related to the one it met. -/
def EndsIn (R : State → State → Prop) (s : State) (o : Host.Outcome State Fault Refusal) : Prop := ∀ t, o = .next t → R s t

theorem EndsIn.of_next {s t : State} (h : R s t) : EndsIn R s (.next t) := by
  rintro _ ⟨⟩
  exact h

theorem elapse_aside (dt : Nat) (s : State) : Aside s (elapse dt s) := {}

theorem FrameOps.live (h : FrameOps R) {dt : Nat} {f : State → State} {s : State} (hf : ∀ u, R u (f u)) :
    EndsIn R s (live dt f s) := by
  intro t ht
  by_cases hphase : s.phase = .notInReset
  · rw [live_next dt f s hphase] at ht
    cases ht
    exact h.trans (h.aside (elapse_aside dt s)) (hf _)
  · rw [live_reset dt f s hphase] at ht
    cases ht
    exact h.aside (elapse_aside dt s)

/-- A command that acts when it is due. -/
theorem FrameOps.live_due (h : FrameOps R) {dt : Nat} {due : State → Prop} [DecidablePred due] {f : State → State} {s : State}
    (hf : ∀ u, due u → R u (f u)) : EndsIn R s (Machine.live dt (fun u => if due u then f u else u) s) :=
  h.live (fun u => by
    split
    · exact hf u ‹_›
    · exact h.refl u)

theorem FrameOps.execKeepAliveMark (h : FrameOps R) (dt : Nat) (s : State) : EndsIn R s (execKeepAliveMark dt s) := by
  refine h.live (fun u => h.aside ?_)
  split
  · exact .ite {} (.refl u)
  · exact .refl u
  · exact .refl u

theorem FrameOps.execMarkEnd (h : FrameOps R) (dt : Nat) (s : State) : EndsIn R s (execMarkEnd dt s) := by
  refine h.live (fun u => h.aside ?_)
  split
  · exact .refl u
  · exact .refl u
  · exact .ite {} (.refl u)

theorem FrameOps.execTransmissionStart (h : FrameOps R) (dt : Nat) (s : State) : EndsIn R s (execTransmissionStart dt s) := by
  refine h.live (fun u => h.aside ?_)
  split
  · exact {}
  · exact .refl u

theorem FrameOps.execTransmissionEnd (h : FrameOps R) (dt : Nat) (s : State) : EndsIn R s (execTransmissionEnd dt s) := by
  refine h.live (fun u => h.aside ?_)
  split
  · exact .refl u
  · exact .refl u
  · exact .ite {} (.refl u)

theorem FrameOps.execInsertionAttempt (h : FrameOps R) (dt : Nat) (s : State) : EndsIn R s (execInsertionAttempt dt s) := by
  refine h.live (fun u => h.aside ?_)
  split
  · exact .refl u
  · exact .ite (.ite {} (.ite {} {})) (.refl u)

theorem FrameOps.execValidMark (h : FrameOps R) (dt width : Nat) (s : State) : EndsIn R s (execValidMark dt width s) := by
  refine h.live (fun u => h.aside ?_)
  split
  · exact .ite (validMark_aside u) (.refl u)
  · exact symbol_aside u
  · exact symbol_aside u

theorem FrameOps.execInvertedMark (h : FrameOps R) (dt width : Nat) (s : State) : EndsIn R s (execInvertedMark dt width s) := by
  refine h.live (fun u => h.aside ?_)
  split
  · refine .ite ?_ (.refl u)
    split
    · exact invertedMarkCounted_aside u
    · exact invertedMarkCounted_aside u
    · exact .refl u
  · exact symbol_aside u
  · exact symbol_aside u

theorem FrameOps.execInvertedStartMarker (h : FrameOps R) (dt : Nat) (s : State) :
    EndsIn R s (execInvertedStartMarker dt s) := by
  refine h.live (fun u => h.aside ?_)
  split
  · exact (onLine_aside u _).trans (startMarker_aside _)
  · exact (onLine_aside u _).trans (startMarker_aside _)
  · exact {}

theorem FrameOps.execDiscardingSilence (h : FrameOps R) (dt : Nat) (s : State) : EndsIn R s (execDiscardingSilence dt s) := by
  refine h.live (fun u => h.aside ?_)
  split
  · exact .refl u
  · exact .refl u
  · exact .ite {} (.refl u)

theorem FrameOps.execSeekingTimeout (h : FrameOps R) (dt : Nat) (s : State) : EndsIn R s (execSeekingTimeout dt s) := by
  refine h.live (fun u => h.aside ?_)
  split
  · exact .refl u
  · exact .ite (enterDown_aside u) (.refl u)
  · exact .refl u

theorem FrameOps.execSilenceWatchdog (h : FrameOps R) (dt : Nat) (s : State) : EndsIn R s (execSilenceWatchdog dt s) := by
  refine h.live (fun u => h.aside ?_)
  split
  · exact .refl u
  · exact .refl u
  · exact .ite (enterDown_aside u) (.refl u)

theorem FrameOps.execMaskWriteEnd (h : FrameOps R) (dt : Nat) (s : State) : EndsIn R s (execMaskWriteEnd dt s) := by
  refine h.live (fun u => h.aside ?_)
  split
  · exact .refl u
  · exact .refl u
  · exact .ite {} (.refl u)

/-- The commands that act on the junction of themselves: the resets, the swap of a finished image write, the demand side, the sequencer,
the groups and the lamp side. The others are marks, markers, bytes and frames of the ring, and the end of a mask write. -/
def onJunction : Instr → Bool
  | .powerOnReset _ | .resetEnd _ _ _ _ | .stationResetCarriedOut _ | .imageWriteEnd _ | .contactSample _ _ | .heldExtension _ _
  | .cabinetClockTick _ | .supervisionExpiry _ | .startRedExpiry _ | .minExpiry _ | .extensionDeadline _ | .stall _
  | .redAmberDue _ _ | .earliestGreenDue _ _ | .redAmberExpiry _ _ | .amberExpiry _ _ | .clearanceExpiry _ _
  | .halfCycleMark _ _ | .flashPhaseEdge _ | .driveEnFall _ | .driveEnRise _ | .mainsLost _ | .probeRequest _ _
  | .probeReturn _ _ _ _ | .leakageTestStart _ | .leakageResult _ _ | .failRedExpiry _ => true
  | _ => false

/-- Every other command is made of the operations of an arriving frame. -/
theorem FrameOps.exec (h : FrameOps R) {c : Instr} (hc : onJunction c = false) (s : State) : EndsIn R s (exec c s) := by
  cases hframe : frameOf c with
  | some f =>
    rw [exec_frameOf c f hframe]
    exact h.live (h.handOn f)
  | none =>
    cases c with
    | echo | peek | load | commit | retire | clearCounters | stageFlagClear | mgmtStatusClear | clearProving | coreRetest
    | stationReset | protection | callDemand | plan | force | hold | release | allRed | resume | flash | dark | time =>
      cases hframe
    | keepAliveMark dt => exact h.execKeepAliveMark dt s
    | markEnd dt => exact h.execMarkEnd dt s
    | validMark dt width => exact h.execValidMark dt width s
    | invertedMark dt width => exact h.execInvertedMark dt width s
    | startMarker dt => exact h.live (fun u => h.aside (startMarker_aside u))
    | invertedStartMarker dt => exact h.execInvertedStartMarker dt s
    | dataByte dt b => exact h.live (fun u => h.aside (dataByte_aside u b))
    | invalidLineSymbol dt => exact h.live (fun u => h.aside (symbol_aside u))
    | discardingSilence dt => exact h.execDiscardingSilence dt s
    | seekingTimeout dt => exact h.execSeekingTimeout dt s
    | silenceWatchdog dt => exact h.execSilenceWatchdog dt s
    | endMarker dt => exact h.live h.endMarker
    | transmissionStart dt => exact h.execTransmissionStart dt s
    | transmissionEnd dt => exact h.execTransmissionEnd dt s
    | insertionAttempt dt => exact h.execInsertionAttempt dt s
    | maskWriteEnd dt => exact h.execMaskWriteEnd dt s
    | powerOnReset | resetEnd | stationResetCarriedOut | imageWriteEnd | contactSample | heldExtension | cabinetClockTick
    | supervisionExpiry | startRedExpiry | minExpiry | extensionDeadline | stall | redAmberDue | earliestGreenDue
    | redAmberExpiry | amberExpiry | clearanceExpiry | halfCycleMark | flashPhaseEdge | driveEnFall | driveEnRise
    | mainsLost | probeRequest | probeReturn | leakageTestStart | leakageResult | failRedExpiry =>
      cases hc

end

end Sys2Proof.Machine
end

section
/-! PROOFS. The aspects follow the mode: what each operation on a group does to one that shows DARK or FLASH_AMBER with nothing asked of it,
and what an operation may do to mode, latch, groups and outputs without leaving the modes of R73, R96 and R159. -/

namespace Sys2Proof.Machine

-- One declaration at a time, as in the tests: declarations that wait for one another each hold a thread with its stack.
set_option Elab.async false

open Sys2Proof.Safety

/-! ### One group -/

/-- The group shows DARK or FLASH_AMBER with nothing asked of it: no request but a whole-junction one moves it (R79 to R82). -/
def Group.idle (x : Group) : Bool :=
  (x.aspect = .dark || x.aspect = .flashAmber) && x.timer.isNone && x.gain.isNone && !x.withheld && x.withheldSince.isNone

theorem idle_of_darkPlain {x : Group} (h : darkPlain x = true) : x.idle = true := by
  simp_all [darkPlain, Group.idle]

theorem idle_of_flashPlain {x : Group} (h : flashPlain x = true) : x.idle = true := by
  unfold flashPlain at h
  split at h
  · simp_all [Group.idle]
  · exact idle_of_darkPlain h
  · exact idle_of_darkPlain h

/-- A group that is idle by what it shows stays so, of the same kind. -/
structure Group.Follows (x y : Group) : Prop where
  kind : y.kind = x.kind
  dark : darkPlain x = true → darkPlain y = true
  flash : flashPlain x = true → flashPlain y = true

theorem Group.Follows.refl (x : Group) : x.Follows x := ⟨rfl, id, id⟩

theorem Group.Follows.trans {x y z : Group} (h : x.Follows y) (k : y.Follows z) : x.Follows z :=
  ⟨k.kind.trans h.kind, fun hx => k.dark (h.dark hx), fun hx => k.flash (h.flash hx)⟩

/-- The group looks as it did. -/
theorem Group.Follows.of_look {x y : Group} (kind : y.kind = x.kind := by rfl) (aspect : y.aspect = x.aspect := by rfl)
    (timer : y.timer = x.timer := by rfl) (gain : y.gain = x.gain := by rfl) (withheld : y.withheld = x.withheld := by rfl)
    (since : y.withheldSince = x.withheldSince := by rfl) : x.Follows y := by
  refine ⟨kind, ?_, ?_⟩
  all_goals
    simp only [flashPlain, darkPlain, kind, aspect, timer, gain, withheld, since]
    exact id

/-- The group was not idle. -/
theorem Group.Follows.of_busy {x y : Group} (kind : y.kind = x.kind) (h : x.idle = false) : x.Follows y := by
  rw [← Bool.not_eq_true] at h
  exact ⟨kind, fun hx => absurd (idle_of_darkPlain hx) h, fun hx => absurd (idle_of_flashPlain hx) h⟩

/-- A group without its gain request or its timer: an idle group has neither. -/
theorem Group.Follows.of_cleared {x y : Group} (kind : y.kind = x.kind) (aspect : y.aspect = x.aspect)
    (timer : y.timer = none ∨ y.timer = x.timer) (gain : y.gain = none ∨ y.gain = x.gain) (withheld : y.withheld = x.withheld)
    (since : y.withheldSince = x.withheldSince) : x.Follows y := by
  cases h : x.idle with
  | false => exact .of_busy kind h
  | true =>
    simp only [Group.idle, Bool.and_eq_true, Option.isNone_iff_eq_none] at h
    obtain ⟨⟨⟨⟨-, htimer⟩, hgain⟩, -⟩, -⟩ := h
    refine .of_look kind aspect ?_ ?_ withheld since
    · rcases timer with e | e
      · rw [e, htimer]
      · exact e
    · rcases gain with e | e
      · rw [e, hgain]
      · exact e

theorem idle_eq_false_of_aspect {x : Group} (hdark : x.aspect ≠ .dark) (hflash : x.aspect ≠ .flashAmber) : x.idle = false := by
  simp [Group.idle, hdark, hflash]

theorem idle_eq_false_of_gain {x : Group} (h : x.gain.isSome = true) : x.idle = false := by
  cases hgain : x.gain <;> simp_all [Group.idle]

theorem idle_eq_false_of_withheld {x : Group} (h : x.withheld = true) : x.idle = false := by
  simp [Group.idle, h]

theorem Group.terminate_follows (x : Group) (n : Nat) (a c : Timer) : x.Follows (x.terminate n a c) := by
  have hbusy {y : Group} (hy : y.kind = x.kind) (hx : x.aspect ≠ .dark ∧ x.aspect ≠ .flashAmber) : x.Follows y :=
    .of_busy hy (idle_eq_false_of_aspect hx.1 hx.2)
  unfold Group.terminate
  split
  next => exact .refl x
  next haspect => exact hbusy rfl (by rw [haspect]; decide)
  next haspect => exact hbusy rfl (by rw [haspect]; decide)
  next haspect _ => exact hbusy rfl (by rw [haspect]; decide)
  next haspect _ => exact hbusy rfl (by rw [haspect]; decide)
  all_goals exact .of_cleared rfl rfl (.inr rfl) (.inl rfl) rfl rfl

theorem Group.returnRed_follows (x : Group) : x.Follows x.returnRed := by
  have hbusy {y : Group} (hy : y.kind = x.kind) (hx : x.aspect ≠ .dark ∧ x.aspect ≠ .flashAmber) : x.Follows y :=
    .of_busy hy (idle_eq_false_of_aspect hx.1 hx.2)
  unfold Group.returnRed
  split
  next => exact .refl x
  next haspect _ => exact hbusy rfl (by rw [haspect]; decide)
  next haspect _ => exact hbusy rfl (by rw [haspect]; decide)
  all_goals exact .refl x

/-- A whole-junction request shows the aspect of the kind with nothing asked, and leaves an UNUSED group alone (R81). -/
theorem Group.show_cases (x : Group) (n : Nat) (v p : Aspect) :
    (x.kind = .unused ∧ x.show n v p = x) ∨
      (x.kind = .vehicle ∧ (x.show n v p).aspect = v ∨ x.kind = .pedestrian ∧ (x.show n v p).aspect = p) ∧
        (x.show n v p).timer = none ∧ (x.show n v p).gain = none ∧ (x.show n v p).withheld = false ∧
        (x.show n v p).withheldSince = none := by
  unfold Group.show
  split
  next hkind => exact .inl ⟨hkind, rfl⟩
  next hkind => exact .inr ⟨.inl ⟨hkind, rfl⟩, rfl, rfl, rfl, rfl⟩
  next hkind => exact .inr ⟨.inr ⟨hkind, rfl⟩, rfl, rfl, rfl, rfl⟩

/-! ### Every group -/

/-- Each group follows the one it was. -/
def GroupsFollow (s t : State) : Prop := ∀ g : GroupId, s.groups[g].Follows t.groups[g]

theorem GroupsFollow.refl (s : State) : GroupsFollow s s := fun _ => .refl _

theorem GroupsFollow.trans {s t u : State} (h : GroupsFollow s t) (k : GroupsFollow t u) : GroupsFollow s u := fun g =>
  (h g).trans (k g)

theorem GroupsFollow.of_same {s t : State} (h : t.groups = s.groups) : GroupsFollow s t := fun _ => h ▸ .refl _

theorem foldl_follows {α : Type} {f : State → α → State} (h : ∀ s a, GroupsFollow s (f s a)) (l : List α) (s : State) :
    GroupsFollow s (l.foldl f s) :=
  foldl_keeps (GroupsFollow s) f (fun t a ht => ht.trans (h t a)) l s (.refl s)

/-- An operation that is carried out or not. -/
theorem GroupsFollow.ite {s t : State} {p : Prop} [Decidable p] (h : p → GroupsFollow s t) : GroupsFollow s (if p then t else s) := by
  split
  · exact h ‹_›
  · exact .refl s

theorem setGroup_follows (s : State) (g : GroupId) {x : Group} (h : s.groups[g].Follows x) : GroupsFollow s (s.setGroup g x) := by
  intro i
  rw [getElem_setGroup]
  split
  next heq => exact heq ▸ h
  next => exact .refl _

/-- A group that was not idle takes another record. -/
theorem setGroup_follows_of_busy (s : State) (g : GroupId) {x : Group} (kind : x.kind = s.groups[g].kind)
    (h : s.groups[g].idle = false) : GroupsFollow s (s.setGroup g x) :=
  setGroup_follows s g (.of_busy kind h)

theorem terminate_follows (s : State) (g : GroupId) : GroupsFollow s (s.terminate g) :=
  setGroup_follows s g (Group.terminate_follows _ _ _ _)

theorem returnRed_follows (s : State) (g : GroupId) : GroupsFollow s (s.returnRed g) :=
  setGroup_follows s g (Group.returnRed_follows _)

/-- GAIN is not taken in DARK and FLASH_AMBER (R82). -/
theorem gain_follows (s : State) (g : GroupId) : GroupsFollow s (s.gain g) := by
  have hbusy (hx : s.groups[g].aspect ≠ .dark ∧ s.groups[g].aspect ≠ .flashAmber) :
      GroupsFollow s (s.setGroup g { s.groups[g] with gain := some (s.earliestGreen g) }) :=
    setGroup_follows_of_busy s g rfl (idle_eq_false_of_aspect hx.1 hx.2)
  unfold State.gain
  split
  iterate 4 exact .refl s
  next haspect _ => exact hbusy (by rw [haspect]; decide)
  next haspect _ => exact hbusy (by rw [haspect]; decide)
  next haspect _ => exact hbusy (by rw [haspect]; decide)
  next haspect _ => exact hbusy (by rw [haspect]; decide)

theorem isSome_of_reached {s : State} {x : Option Nat} (h : s.reached x = true) : x.isSome = true := by
  cases x with
  | none => cases h
  | some e => rfl

/-- Only a group with a gain request tries its entry (R84). -/
theorem tryGreen_follows (s : State) (g : GroupId) : GroupsFollow s (s.tryGreen g) := by
  unfold State.tryGreen
  split
  · exact .refl s
  next hreached =>
    have hbusy : s.groups[g].idle = false := idle_eq_false_of_gain (isSome_of_reached (by simpa using hreached))
    split
    · exact .refl s
    · split
      · exact setGroup_follows_of_busy s g rfl hbusy
      · exact setGroup_follows_of_busy s g rfl hbusy

/-- Entry to RED_AMBER by a group that was not idle (R83). -/
theorem tryRedAmber_follows {s : State} {g : GroupId} (h : s.groups[g].idle = false) : GroupsFollow s (s.tryRedAmber g) := by
  unfold State.tryRedAmber
  split
  · exact setGroup_follows_of_busy s g rfl h
  · exact setGroup_follows_of_busy s g rfl h

theorem release_follows {s : State} {g : GroupId} (h : s.groups[g].idle = false) : GroupsFollow s (s.release g) := by
  unfold State.release
  dsimp only
  split
  · exact setGroup_follows_of_busy s g rfl h
  · refine .trans (setGroup_follows_of_busy s g ?_ h) (tryGreen_follows _ g)
    rfl
  · exact .refl s

/-- Only a withheld group is released (R88). -/
theorem recheck_follows (s : State) (g : GroupId) : GroupsFollow s (s.recheck g) :=
  .ite (fun hp => release_follows (idle_eq_false_of_withheld (Bool.and_eq_true_iff.mp hp).1))

theorem recheckAround_follows (s : State) (i : GroupId) : GroupsFollow s (s.recheckAround i) :=
  foldl_follows (fun t g => .ite (fun _ => recheck_follows t g)) _ s

theorem retryAround_follows (s : State) (i : GroupId) : GroupsFollow s (s.retryAround i) :=
  foldl_follows (fun t g => .ite (fun _ => tryGreen_follows t g)) _ s

theorem endTermination_follows {s : State} {g : GroupId} (h : s.groups[g].idle = false) : GroupsFollow s (s.endTermination g) :=
  setGroup_follows_of_busy s g rfl h

theorem clearToRed_follows (s : State) : GroupsFollow s s.clearToRed := by
  refine foldl_follows (fun t g => ?_) _ s
  dsimp only
  split
  · exact terminate_follows t g
  · exact terminate_follows t g
  · exact .ite (fun _ => terminate_follows t g)
  · exact returnRed_follows t g
  · exact .ite (fun _ => returnRed_follows t g)
  · exact .refl t
  · exact .refl t

theorem changeRequests_follows (s : State) (n : Nat) : GroupsFollow s (s.changeRequests n) := by
  unfold State.changeRequests
  dsimp only
  refine .trans (foldl_follows (fun t g => ?_) _ s) (.trans (foldl_follows (fun t g => ?_) _ _) (foldl_follows (fun t g => ?_) _ _))
  · exact .ite (fun _ => terminate_follows t g)
  · exact .ite (fun _ => returnRed_follows t g)
  · exact .ite (fun _ => gain_follows t g)

/-! ### What an operation keeps -/

/-- Every UNUSED group is DARK (R78). -/
def UnusedDark (s : State) : Prop := ∀ g : GroupId, s.groups[g].kind = .unused → darkPlain s.groups[g] = true

/-- With DRIVE_EN low every output is OFF (R96). -/
def OutputsLow (s : State) : Prop := s.drive.driveEn = false → ∀ n : CircuitId, s.drive.records[n].applied = false

/-- The modes in which groups show signals of their own: neither FLASH nor DARK. -/
def JunctionMode.signals : JunctionMode → Bool
  | .flash | .dark => false
  | .start | .run | .allRed | .failRed => true

theorem signals_of_normal {m : JunctionMode} (h : m.normal = true) : m.signals = true := by
  cases m with
  | flash | dark | failRed => cases h
  | start | run | allRed => rfl

/-- An operation that does not bring the junction out of DARK, nor to signals under a latched conflict, nor an output ON under a low
DRIVE_EN, nor a group out of the picture of the mode. -/
structure Guarded (s t : State) : Prop where
  driveEn : t.drive.driveEn = s.drive.driveEn
  active : t.mgmt.active = s.mgmt.active
  dark : s.seq.mode = .dark → t.seq.mode = .dark
  latch : LatchHolds s → LatchHolds t
  unused : UnusedDark s → UnusedDark t
  aspects : AspectsFollowMode s → AspectsFollowMode t
  outputs : OutputsLow s → OutputsLow t

theorem unusedDark_of_aspects {s : State} (h : AspectsFollowMode s) : UnusedDark s := fun g => (h g).1

theorem Guarded.trans {s t u : State} (h : Guarded s t) (k : Guarded t u) : Guarded s u where
  driveEn := k.driveEn.trans h.driveEn
  active := k.active.trans h.active
  dark hs := k.dark (h.dark hs)
  latch hs := k.latch (h.latch hs)
  unused hs := k.unused (h.unused hs)
  aspects hs := k.aspects (h.aspects hs)
  outputs hs := k.outputs (h.outputs hs)

theorem UnusedDark.follows {s t : State} (hs : UnusedDark s) (h : GroupsFollow s t) : UnusedDark t := fun g hkind =>
  (h g).dark (hs g ((h g).kind.symm.trans hkind))

theorem aspects_of_follows {s t : State} (hs : AspectsFollowMode s) (h : GroupsFollow s t)
    (mode : t.seq.mode = s.seq.mode) : AspectsFollowMode t := by
  intro g
  obtain ⟨-, hdark, hflash⟩ := hs g
  rw [mode]
  exact ⟨(unusedDark_of_aspects hs).follows h g, fun hm => (h g).dark (hdark hm), fun hm => (h g).flash (hflash hm)⟩

/-- In a mode of signals the UNUSED groups alone are bound to a picture. -/
theorem UnusedDark.aspects {s : State} (h : UnusedDark s) (hm : s.seq.mode.signals = true) : AspectsFollowMode s := fun g => by
  refine ⟨h g, fun e => ?_, fun e => ?_⟩
  all_goals
    rw [e] at hm
    cases hm

theorem OutputsLow.of_applied {s t : State} (hs : OutputsLow s) (driveEn : t.drive.driveEn = s.drive.driveEn)
    (applied : ∀ n : CircuitId, t.drive.records[n].applied = s.drive.records[n].applied) : OutputsLow t := fun hlow n =>
  (applied n).trans (hs (driveEn ▸ hlow) n)

theorem OutputsLow.of_drive {s t : State} (hs : OutputsLow s) (drive : t.drive = s.drive) : OutputsLow t :=
  hs.of_applied (by rw [drive]) (fun n => by rw [drive])

/-- Mode and latch stay, and each group follows. -/
theorem Guarded.of_follows {s t : State} (groups : GroupsFollow s t) (outputs : OutputsLow s → OutputsLow t)
    (mode : t.seq.mode = s.seq.mode := by rfl) (latch : t.fallback.latch = s.fallback.latch := by rfl)
    (driveEn : t.drive.driveEn = s.drive.driveEn := by rfl) (active : t.mgmt.active = s.mgmt.active := by rfl) :
    Guarded s t where
  driveEn := driveEn
  active := active
  dark hs := mode.trans hs
  latch hs := by rw [LatchHolds, latch, mode]; exact hs
  unused hs := hs.follows groups
  aspects hs := aspects_of_follows hs groups mode
  outputs := outputs

/-- An operation that leaves mode, latch, groups, outputs and configuration alone. -/
theorem Guarded.of_same {s t : State} (groups : t.groups = s.groups := by rfl) (mode : t.seq.mode = s.seq.mode := by rfl)
    (latch : t.fallback.latch = s.fallback.latch := by rfl) (driveEn : t.drive.driveEn = s.drive.driveEn := by rfl)
    (records : t.drive.records = s.drive.records := by rfl) (active : t.mgmt.active = s.mgmt.active := by rfl) : Guarded s t :=
  .of_follows (.of_same groups) (fun hs => hs.of_applied driveEn (fun n => by rw [records])) mode latch driveEn active

theorem Guarded.refl (s : State) : Guarded s s := .of_same

/-- One mode of signals follows another, with the latch as it was. -/
theorem Guarded.of_signals {s t : State} (before : s.seq.mode.signals = true) (after : t.seq.mode.signals = true := by rfl)
    (groups : t.groups = s.groups := by rfl) (latch : t.fallback.latch = s.fallback.latch := by rfl)
    (drive : t.drive = s.drive := by rfl) (active : t.mgmt.active = s.mgmt.active := by rfl) : Guarded s t where
  driveEn := by rw [drive]
  active := active
  dark hs := by rw [hs] at before; cases before
  latch hs hlatch := by
    rcases hs (latch ▸ hlatch) with e | e <;> rw [e] at before <;> cases before
  unused hs := hs.follows (.of_same groups)
  aspects hs := ((unusedDark_of_aspects hs).follows (.of_same groups)).aspects after
  outputs hs := hs.of_drive drive

/-- An operation on groups alone. -/
theorem GroupsOnly.guarded {s t : State} (h : GroupsOnly s t) (k : GroupsFollow s t) : Guarded s t := by
  obtain ⟨hsame, -, -, -⟩ := h
  refine .of_follows k (fun hs => hs.of_drive ?_) ?_ ?_ ?_ ?_
  all_goals rw [hsame]

theorem foldl_guarded {α : Type} {f : State → α → State} (h : ∀ s a, Guarded s (f s a)) (l : List α) (s : State) :
    Guarded s (l.foldl f s) :=
  foldl_keeps (Guarded s) f (fun t a ht => ht.trans (h t a)) l s (.refl s)

/-- An operation that is carried out or not. -/
theorem Guarded.ite {s t u : State} {p : Prop} [Decidable p] (h : p → Guarded s t) (k : Guarded s u) :
    Guarded s (if p then t else u) := by
  split
  · exact h ‹_›
  · exact k

/-! ### Modes and causes -/

theorem raise_guarded (s : State) (c : AlarmCode) (n : Byte) : Guarded s (s.raise c n) := .of_same

theorem clear_guarded (s : State) (c : AlarmCode) (n : Byte) : Guarded s (s.clear c n) := .of_same

theorem alarmEvents_guarded (s : State) (n : Byte) (l : List AlarmEvent) : Guarded s (s.alarmEvents n l) :=
  foldl_guarded (fun t _ => .ite (fun _ => raise_guarded t _ _) (clear_guarded t _ _)) l s

theorem leaveNormal_guarded (s : State) : Guarded s s.leaveNormal := .ite (fun _ => .of_same) (.refl s)

theorem leaveNormal_mode (s : State) : s.leaveNormal.seq.mode = s.seq.mode := by
  unfold State.leaveNormal
  split <;> rfl

theorem leaveNormal_fallback (s : State) : s.leaveNormal.fallback = s.fallback := by
  unfold State.leaveNormal
  split <;> rfl

/-- Other causes in the same mode. -/
theorem shift_guarded {s : State} {m : JunctionMode} {f : Fallback} (mode : m = s.seq.mode) (latch : f.latch = s.fallback.latch) :
    Guarded s (s.shift m f) := by
  obtain ⟨hmode, hfallback⟩ := shift_mode s m f
  have hcontrol := shift_control s m f
  exact .of_same (shift_groups s m f) (hmode.trans mode) (by rw [hfallback, latch]) (by rw [hcontrol.drive])
    (by rw [hcontrol.drive]) (by rw [hcontrol.mgmt])

theorem shift_guarded_of_signals {s : State} {m : JunctionMode} {f : Fallback} (before : s.seq.mode.signals = true)
    (after : m.signals = true) (latch : f.latch = s.fallback.latch) : Guarded s (s.shift m f) := by
  obtain ⟨hmode, hfallback⟩ := shift_mode s m f
  have hcontrol := shift_control s m f
  exact .of_signals before (by rw [hmode, after]) (shift_groups s m f) (by rw [hfallback, latch]) hcontrol.drive
    (by rw [hcontrol.mgmt])

/-- A controlled cause leaves normal control for FAIL_RED, where the groups are cleared to red; else it changes the cause at most (R163,
R164). -/
theorem controlled_guarded (s : State) (c : Cause) (n : Byte) : Guarded s (s.controlled c n) := by
  unfold State.controlled
  dsimp only
  split
  next hnormal =>
    refine ((leaveNormal_guarded s).trans (shift_guarded_of_signals ?_ rfl ?_)).trans
      ((clearToRed_groupsOnly _).guarded (clearToRed_follows _))
    · rw [leaveNormal_mode]
      exact signals_of_normal hnormal
    · rw [leaveNormal_fallback]
      rfl
  next => exact .ite (fun _ => .refl s) (shift_guarded rfl rfl)

theorem redLossAtStart_guarded (s : State) : Guarded s s.redLossAtStart :=
  .ite (fun _ => foldl_guarded (fun t _ => .ite (fun _ => controlled_guarded t _ _) (.refl t)) _ s) (.refl s)

/-! ### Whole-junction requests -/

theorem showAll_unused {s : State} (h : UnusedDark s) (v p : Aspect) : UnusedDark (s.showAll v p) := by
  intro g hkind
  rw [showAll_getElem] at hkind ⊢
  rcases Group.show_cases s.groups[g] s.stamp v p with ⟨hunused, hsame⟩ | ⟨hused, -⟩
  · rw [hsame]
    exact h g hunused
  · rw [(Group.show_keeps _ _ _ _).1] at hkind
    rcases hused with ⟨e, -⟩ | ⟨e, -⟩ <;> rw [e] at hkind <;> cases hkind

theorem Group.show_darkPlain {x : Group} (h : x.kind = .unused → darkPlain x = true) (n : Nat) :
    darkPlain (x.show n .dark .dark) = true := by
  rcases Group.show_cases x n .dark .dark with ⟨hunused, hsame⟩ | ⟨hused, htimer, hgain, hwithheld, hsince⟩
  · rw [hsame]
    exact h hunused
  · have haspect : (x.show n .dark .dark).aspect = .dark := by
      rcases hused with ⟨-, e⟩ | ⟨-, e⟩ <;> exact e
    simp [darkPlain, haspect, htimer, hgain, hwithheld, hsince]

theorem Group.show_flashPlain {x : Group} (h : x.kind = .unused → darkPlain x = true) (n : Nat) :
    flashPlain (x.show n .flashAmber .dark) = true := by
  have hkind := (Group.show_keeps x n .flashAmber .dark).1
  rcases Group.show_cases x n .flashAmber .dark with ⟨hunused, hsame⟩ | ⟨hused, htimer, hgain, hwithheld, hsince⟩
  · rw [hsame, flashPlain, hunused]
    exact h hunused
  · rcases hused with ⟨e, haspect⟩ | ⟨e, haspect⟩
    · simp [flashPlain, hkind, e, haspect, htimer, hgain, hwithheld, hsince]
    · simp [flashPlain, darkPlain, hkind, e, haspect, htimer, hgain, hwithheld, hsince]

/-- SHOW_DARK makes every group DARK (R81). -/
theorem showDark_dark {s : State} (h : UnusedDark s) (g : GroupId) : darkPlain s.showDark.groups[g] = true := by
  rw [State.showDark, showAll_getElem]
  exact Group.show_darkPlain (h g) _

/-- SHOW_FLASH gives every group its flash picture (R81). -/
theorem showFlash_flash {s : State} (h : UnusedDark s) (g : GroupId) : flashPlain s.showFlash.groups[g] = true := by
  rw [State.showFlash, showAll_getElem]
  exact Group.show_flashPlain (h g) _

theorem showDark_aspects {s : State} (h : UnusedDark s) (hm : s.seq.mode = .dark) : AspectsFollowMode s.showDark := by
  intro g
  refine ⟨showAll_unused h _ _ g, fun _ => showDark_dark h g, fun hflash => ?_⟩
  cases hm.symm.trans hflash

theorem showFlash_aspects {s : State} (h : UnusedDark s) (hm : s.seq.mode = .flash) : AspectsFollowMode s.showFlash := by
  intro g
  refine ⟨showAll_unused h _ _ g, fun hdark => ?_, fun _ => showFlash_flash h g⟩
  cases hm.symm.trans hdark

/-! ### FLASH and DARK -/

/-- Mode, groups, outputs and configuration are as they were; the latch may differ. -/
structure SameView (s t : State) : Prop where
  mode : t.seq.mode = s.seq.mode := by rfl
  groups : t.groups = s.groups := by rfl
  drive : t.drive = s.drive := by rfl
  active : t.mgmt.active = s.mgmt.active := by rfl

/-- What the entry to FLASH or DARK shows is set at once for every group. -/
theorem leaveNormal_shift_unused {s : State} (h : UnusedDark s) (m : JunctionMode) (f : Fallback) :
    UnusedDark (s.leaveNormal.shift m f) := by
  intro g
  rw [shift_groups, leaveNormal_groups]
  exact h g

theorem toDark_aspects {s : State} (h : UnusedDark s) (f : Fallback) : AspectsFollowMode (s.toDark f) :=
  showDark_aspects (leaveNormal_shift_unused h _ _) (shift_mode _ _ _).1

theorem toFlash_aspects {s : State} (h : UnusedDark s) (f : Fallback) : AspectsFollowMode (s.toFlash f) :=
  showFlash_aspects (leaveNormal_shift_unused h _ _) (shift_mode _ _ _).1

/-- DARK may be entered from any mode, with any latch. -/
theorem SameView.toDark_guarded {s t : State} (h : SameView s t) (f : Fallback) : Guarded s (t.toDark f) := by
  have hcontrol := toDark_control t f
  have hmode := (toDark_mode t f).1
  have hunused (hs : UnusedDark s) : UnusedDark t := hs.follows (.of_same h.groups)
  exact {
    driveEn := by rw [hcontrol.drive, h.drive]
    active := by rw [hcontrol.mgmt, h.active]
    dark := fun _ => hmode
    latch := fun _ _ => .inr hmode
    unused := fun hs => unusedDark_of_aspects (toDark_aspects (hunused hs) f)
    aspects := fun hs => toDark_aspects (hunused (unusedDark_of_aspects hs)) f
    outputs := fun hs => hs.of_drive (hcontrol.drive.trans h.drive) }

/-- FLASH may be entered from any mode but DARK, with any latch. -/
theorem SameView.toFlash_guarded {s t : State} (h : SameView s t) (hm : s.seq.mode ≠ .dark) (f : Fallback) :
    Guarded s (t.toFlash f) := by
  have hcontrol := toFlash_control t f
  have hmode := (toFlash_mode t f).1
  have hunused (hs : UnusedDark s) : UnusedDark t := hs.follows (.of_same h.groups)
  exact {
    driveEn := by rw [hcontrol.drive, h.drive]
    active := by rw [hcontrol.mgmt, h.active]
    dark := fun hdark => absurd hdark hm
    latch := fun _ _ => .inl hmode
    unused := fun hs => unusedDark_of_aspects (toFlash_aspects (hunused hs) f)
    aspects := fun hs => toFlash_aspects (hunused (unusedDark_of_aspects hs)) f
    outputs := fun hs => hs.of_drive (hcontrol.drive.trans h.drive) }

/-- In FLASH and DARK the latch may be set (R159). -/
theorem SameView.shift_guarded {s t : State} (h : SameView s t) {m : JunctionMode} (hm : s.seq.mode = m)
    (hsignals : m.signals = false) (f : Fallback) : Guarded s (t.shift m f) := by
  obtain ⟨hmode, -⟩ := shift_mode t m f
  have hcontrol := shift_control t m f
  have hgroups : GroupsFollow s (t.shift m f) := .of_same ((shift_groups t m f).trans h.groups)
  exact {
    driveEn := by rw [hcontrol.drive, h.drive]
    active := by rw [hcontrol.mgmt, h.active]
    dark := fun hdark => by rw [hmode, ← hm, hdark]
    latch := fun _ _ => by
      rw [hmode]
      cases m with
      | flash => exact .inl rfl
      | dark => exact .inr rfl
      | start | run | allRed | failRed => cases hsignals
    unused := fun hs => hs.follows hgroups
    aspects := fun hs => aspects_of_follows hs hgroups (hmode.trans hm.symm)
    outputs := fun hs => hs.of_drive (hcontrol.drive.trans h.drive) }

/-- A detected conflict sets the latch and takes the junction to FLASH or DARK, case by case of the table of R159. -/
theorem conflictDetected_guarded (s : State) (l : List Byte) : Guarded s (s.conflictDetected l) := by
  unfold State.conflictDetected
  split
  · exact .refl s
  next p rest =>
    dsimp only
    have hview : SameView s ((p :: rest).foldl (fun t q => t.raise .conflict q)
        { s with fallback := { s.fallback with latch := true } }) :=
      foldl_keeps (SameView s) (fun t q => t.raise .conflict q) (fun _ _ ht => ⟨ht.mode, ht.groups, ht.drive, ht.active⟩) _ _ {}
    generalize (p :: rest).foldl (fun t q => t.raise .conflict q) { s with fallback := { s.fallback with latch := true } } = t
      at hview ⊢
    split
    next hm => exact hview.shift_guarded hm rfl _
    next hm => exact .ite (fun _ => hview.toDark_guarded _) (hview.shift_guarded hm rfl _)
    next hm => exact .ite (fun _ => hview.toDark_guarded _) (hview.toFlash_guarded (by rw [hm]; decide) _)
    next hm => exact .ite (fun _ => hview.toDark_guarded _) (hview.toFlash_guarded (by rw [hm]; decide) _)
    next hm => exact .ite (fun _ => hview.toDark_guarded _) (hview.toFlash_guarded (by rw [hm]; decide) _)
    next hm => exact .ite (fun _ => hview.toDark_guarded _) (hview.toFlash_guarded (by rw [hm]; decide) _)

/-! ### Evidence and red status -/

/-- A group record that looks as it did. -/
theorem setGroup_guarded (s : State) (g : GroupId) {x : Group} (h : s.groups[g].Follows x) : Guarded s (s.setGroup g x) :=
  .of_follows (setGroup_follows s g h) id

theorem recheckAround_guarded (s : State) (g : GroupId) : Guarded s (s.recheckAround g) :=
  (recheckAround_groupsOnly s g).guarded (recheckAround_follows s g)

theorem setEvidence_guarded (s : State) (g : GroupId) (v : Bool) : Guarded s (s.setEvidence g v) := by
  have hdrop (t : State) : Guarded t t.dropEndedPairs := .of_same
  have hset := ((setGroup_guarded s g (x := { s.groups[g] with evidence := v }) .of_look).trans (hdrop _)).trans
    (recheckAround_guarded _ g)
  unfold State.setEvidence
  exact .ite (fun _ => hset.trans (conflictDetected_guarded _ _)) hset

theorem refreshEvidence_guarded (s : State) : Guarded s s.refreshEvidence :=
  .trans (foldl_guarded (fun t g => .ite (fun _ => setEvidence_guarded t g _) (.refl t)) _ s)
    (foldl_guarded (fun t g => .ite (fun _ => setEvidence_guarded t g _) (.refl t)) _ _)

theorem setRedStatus_guarded (s : State) (g : GroupId) (v : RedStatus) : Guarded s (s.setRedStatus g v) := by
  have hset := (setGroup_guarded s g (x := { s.groups[g] with redStatus := v }) .of_look).trans (recheckAround_guarded _ g)
  unfold State.setRedStatus
  dsimp only
  generalize (s.setGroup g { s.groups[g] with redStatus := v }).recheckAround g = t at hset ⊢
  have hlost := hset.trans (raise_guarded t .redLost (BitVec.ofNat 8 g.val))
  split
  · exact hset
  · exact hset.trans (clear_guarded _ _ _)
  · exact hset.trans (clear_guarded _ _ _)
  · exact .ite (fun _ => hlost.trans (controlled_guarded _ _ _)) hlost
  · exact .ite (fun _ => hlost.trans (controlled_guarded _ _ _)) hlost
  all_goals exact hset

theorem refreshRed_guarded (s : State) : Guarded s s.refreshRed :=
  foldl_guarded (fun t g => .ite (fun _ => .refl t) (setRedStatus_guarded t g _)) _ s

end Sys2Proof.Machine
end

section
/-! PROOFS. The lamp side, stages and demand stay within the modes (R73, R78, R81, R96, R159). -/

namespace Sys2Proof.Machine

-- One declaration at a time, as in the tests: declarations that wait for one another each hold a thread with its stack.
set_option Elab.async false

open Sys2Proof.Safety

/-! ### The lamp side -/

/-- A lockout is no output. -/
theorem setLockout_guarded (s : State) (n : CircuitId) (v : Bool) :
    Guarded s (s.setDrive n { s.drive.records[n] with lockout := v }) :=
  .of_follows (.refl s) (fun hs => hs.of_applied rfl (setLockout_lamps s n v).applied)

theorem setCircuit_guarded (s : State) (n : CircuitId) (r : ProvingRecord) : Guarded s (s.setCircuit n r) := .of_same

theorem alarmEvents_refreshRed_guarded (s : State) (n : Byte) (l : List AlarmEvent) :
    Guarded s (s.alarmEvents n l).refreshRed :=
  (alarmEvents_guarded s n l).trans (refreshRed_guarded _)

theorem clearProving_guarded (s : State) (n : CircuitId) : Guarded s (s.clearProving n) :=
  ((setCircuit_guarded s n _).trans (setLockout_guarded _ n false)).trans (alarmEvents_refreshRed_guarded _ _ _)

theorem coreBroken_guarded (s : State) (n : CircuitId) : Guarded s (s.coreBroken n) := by
  unfold State.coreBroken
  split
  · exact .refl s
  · exact .refl s
  all_goals exact (setCircuit_guarded s n _).trans (alarmEvents_refreshRed_guarded _ _ _)

theorem coreMended_guarded (s : State) (n : CircuitId) : Guarded s (s.coreMended n) := by
  unfold State.coreMended
  split
  · exact (setCircuit_guarded s n _).trans (refreshRed_guarded _)
  all_goals exact .refl s

theorem currentReading_guarded (s : State) (n : CircuitId) (v : Nat) : Guarded s (s.currentReading n v) := by
  unfold State.currentReading
  dsimp only
  split
  · refine .trans (.ite (fun _ => ?_) (setCircuit_guarded s n _)) (alarmEvents_refreshRed_guarded _ _ _)
    exact (setCircuit_guarded s n _).trans (setLockout_guarded _ n true)
  · exact setCircuit_guarded s n _

theorem moveCore_guarded (s : State) (n : CircuitId) (r : CoreRecord) : Guarded s (s.moveCore n r) :=
  moveCore_keeps (Guarded s) .of_same (fun _ h => h.trans .of_same) (fun _ _ h => h.trans (alarmEvents_guarded _ _ _))
    (fun _ h => h.trans (coreBroken_guarded _ n)) (fun _ h => h.trans (coreMended_guarded _ n))
    (fun _ h => h.trans (refreshEvidence_guarded _))

theorem voltageReading_guarded (s : State) (n : CircuitId) (v : Nat) : Guarded s (s.voltageReading n v) :=
  .ite (fun _ => moveCore_guarded s n _) (.refl s)

theorem coreRetest_guarded (s : State) (n : CircuitId) : Guarded s (s.coreRetest n) := by
  refine .trans ?_ (moveCore_guarded _ n _)
  exact .of_same

theorem sampleSet_guarded (s : State) (records : Vector DriveRecord 24) (values : Vector Nat 24) :
    Guarded s (s.sampleSet records values) :=
  .trans (foldl_guarded (fun t n => .ite (fun _ => currentReading_guarded t n _) (.refl t)) _ s)
    (foldl_guarded (fun t n => .ite (fun _ => voltageReading_guarded t n _) (.refl t)) _ _)

/-! ### Switching outputs -/

/-- With DRIVE_EN low every target is OFF, and so is every output once the targets are applied (R94, R96). -/
theorem foldl_switchDue_low (s : State) : OutputsLow (circuitIds.foldl State.switchDue s) := by
  intro hlow n
  rw [(foldl_lamp _ switchDue_lamp circuitIds s).driveEn] at hlow
  rw [foldl_switchDue_record, toward_applied, target_of_driveOff hlow]

/-- After a change of outputs alone the targets are applied. -/
theorem applyTargets_guarded_of {s t : State} (groups : t.groups = s.groups) (mode : t.seq.mode = s.seq.mode)
    (latch : t.fallback.latch = s.fallback.latch) (driveEn : t.drive.driveEn = s.drive.driveEn)
    (active : t.mgmt.active = s.mgmt.active) : Guarded s t.applyTargets := by
  have hswitches := foldl_switchDue_only t
  have hlamp := foldl_lamp _ switchDue_lamp circuitIds t
  rw [applyTargets_eq]
  refine .trans (.of_follows (.of_same (hswitches.groups.trans groups)) (fun _ => foldl_switchDue_low t) ?_ ?_
    (hlamp.driveEn.trans driveEn) ?_) (refreshEvidence_guarded _)
  · rw [hswitches.seq, mode]
  · rw [hswitches.fallback, latch]
  · rw [hswitches.mgmt, active]

theorem applyTargets_guarded (s : State) : Guarded s s.applyTargets := applyTargets_guarded_of rfl rfl rfl rfl rfl

theorem applyTargets_low (s : State) : OutputsLow s.applyTargets := by
  rw [applyTargets_eq]
  exact (refreshEvidence_guarded _).outputs (foldl_switchDue_low s)

/-- How a circuit stood is no output. -/
theorem remember_guarded (t s : State) : Guarded t (t.remember s) := by
  have hdriveEn := (remember_lamp t s).driveEn
  refine .of_follows (.of_same (remember_groups t s)) (fun hs => hs.of_applied hdriveEn (remember_applied t s)) ?_ ?_ hdriveEn ?_
  · rw [remember_seq]
  · rw [remember_fallback]
  · rw [remember_mgmt]

theorem forget_guarded (s : State) : Guarded s s.forget := by
  have hdriveEn := (forget_lamp s).driveEn
  refine .of_follows (.of_same (forget_groups s)) (fun hs => hs.of_applied hdriveEn (fun n => ?_)) ?_ ?_
    hdriveEn ?_
  · rw [forget_record]
  · rw [forget_seq]
  · rw [forget_fallback]
  · rw [forget_mgmt]

theorem applyLost_guarded (s : State) : Guarded s s.applyLost := by
  unfold State.applyLost
  split
  · exact (applyTargets_guarded s).trans (remember_guarded _ s)
  · exact .refl s

theorem loseMains_guarded (s : State) : Guarded s s.loseMains := by
  unfold State.loseMains
  exact applyTargets_guarded_of rfl rfl rfl rfl rfl

/-- The mark after a loss of mains may take an output back to ON; it applies the targets itself (R126, log 43). -/
theorem countMark_applyTargets_guarded (s : State) : Guarded s s.countMark.applyTargets := by
  have hview : s.countMark.groups = s.groups ∧ s.countMark.seq = s.seq ∧ s.countMark.fallback = s.fallback ∧
      s.countMark.drive.driveEn = s.drive.driveEn ∧ s.countMark.mgmt = s.mgmt := by
    unfold State.countMark
    dsimp only
    split
    · exact ⟨rfl, rfl, rfl, rfl, rfl⟩
    · rw [clear_groups, clear_seq, clear_fallback, clear_drive, clear_mgmt, takeBack_groups, takeBack_seq, takeBack_fallback,
        (takeBack_lamp _).driveEn, takeBack_mgmt]
      exact ⟨rfl, rfl, rfl, rfl, rfl⟩
  obtain ⟨hgroups, hseq, hfallback, hdriveEn, hmgmt⟩ := hview
  exact applyTargets_guarded_of hgroups (by rw [hseq]) (by rw [hfallback]) hdriveEn (by rw [hmgmt])

/-! ### Stages -/

theorem minStart_guarded (s : State) : Guarded s s.minStart := by
  unfold State.minStart
  split
  · exact .refl s
  · exact .of_same

theorem completeStage_guarded (s : State) : Guarded s s.completeStage := by
  unfold State.completeStage
  split
  · exact .ite (fun _ => minStart_guarded s) (.refl s)
  · exact .refl s

theorem changeStage_guarded (s : State) (leaving : Bool) (t : Nat) : Guarded s (s.changeStage leaving t) := by
  have hend : Guarded s (match leaving, s.seq.stage with
      | true, some old => s.stageEnd old
      | _, _ => s) := by
    split
    · exact .of_same
    · exact .refl s
  unfold State.changeStage
  dsimp only
  refine hend.trans (.trans ?_
    (.trans ((changeRequests_groupsOnly _ t).guarded (changeRequests_follows _ t)) (completeStage_guarded _)))
  exact .of_same

theorem chooseStep_guarded (s : State) (k : Nat) : Guarded s (s.chooseStep k) := by
  refine .ite (fun _ => .trans ?_ (minStart_guarded _)) (.trans ?_ (changeStage_guarded _ _ _))
  · exact .of_same
  · exact .of_same

theorem planSwitch_guarded (s : State) : Guarded s s.planSwitch := by
  unfold State.planSwitch
  dsimp only
  split
  all_goals
    refine .trans ?_ (chooseStep_guarded _ _)
    exact .of_same

theorem beginRest_guarded (s : State) : Guarded s s.beginRest := .of_same

theorem scanPlan_guarded (s : State) : Guarded s s.scanPlan := by
  unfold State.scanPlan
  dsimp only
  split
  · exact chooseStep_guarded s _
  · refine .ite (fun _ => planSwitch_guarded s) ?_
    split
    · exact chooseStep_guarded s _
    · exact beginRest_guarded s

theorem stepEnd_guarded (s : State) : Guarded s s.stepEnd := by
  unfold State.stepEnd
  split
  · exact .refl s
  all_goals exact .ite (fun _ => planSwitch_guarded s) (scanPlan_guarded s)

theorem restScan_guarded (s : State) : Guarded s s.restScan := .ite (fun _ => stepEnd_guarded s) (.refl s)

theorem restSwitch_guarded (s : State) : Guarded s s.restSwitch :=
  .ite (fun _ => planSwitch_guarded s) (.ite (fun _ => .of_same) (.refl s))

theorem holdEnded_guarded (s : State) : Guarded s s.holdEnded :=
  .ite (fun _ => stepEnd_guarded s) (.ite (fun _ => planSwitch_guarded s) (restScan_guarded s))

theorem actForce_guarded (s : State) (t : Nat) : Guarded s (s.actForce t) := by
  refine .ite (fun _ => .trans ?_ (minStart_guarded _)) (.trans ?_ (changeStage_guarded _ _ _))
  · exact .of_same
  · exact .of_same

theorem beginClearing_guarded (s : State) : Guarded s s.beginClearing := by
  refine .trans ?_ ((clearToRed_groupsOnly _).guarded (clearToRed_follows _))
  exact .of_same

theorem minEnded_guarded (s : State) : Guarded s s.minEnded := by
  unfold State.minEnded
  split
  · exact .refl s
  · exact beginClearing_guarded s
  · split
    · exact actForce_guarded s _
    · split
      · exact beginRest_guarded s
      · exact stepEnd_guarded s
      · exact .of_same

theorem afterIsolation_guarded (s : State) (held : Bool) : Guarded s (s.afterIsolation held) :=
  .ite (fun _ => stepEnd_guarded s) (.ite (fun _ => stepEnd_guarded s) (.refl s))

/-! ### Demand -/

theorem extensionEvent_guarded (s : State) : Guarded s s.extensionEvent := by
  unfold State.extensionEvent
  split
  · exact .of_same
  · exact .refl s

theorem demandEvent_guarded (s : State) (d : LineId) : Guarded s (s.demandEvent d) := by
  have hregister (r : Half) : Guarded s { s with demand := { s.demand with register := r } } := .of_same
  have hevent (u : State) (p : Prop) [Decidable p] : Guarded u (if p then u.extensionEvent else u) :=
    .ite (fun _ => extensionEvent_guarded u) (.refl u)
  unfold State.demandEvent
  dsimp only
  refine .ite (fun _ => ?_) (.refl s)
  exact .ite (fun _ => (hregister _).trans (hevent _ _)) (((hregister _).trans (hevent _ _)).trans (restScan_guarded _))

theorem raiseLines_guarded (s : State) (word : Half) : Guarded s (s.raiseLines word) :=
  foldl_guarded (fun t d => .ite (fun _ => demandEvent_guarded t d) (.refl t)) _ s

theorem sampleContact_guarded (s : State) (k : ContactId) (closed : Bool) : Guarded s (s.sampleContact k closed) := by
  unfold State.sampleContact
  dsimp only
  refine .ite (fun _ => ?_) (.ite (fun _ => .of_same) .of_same)
  refine .trans ?_ (demandEvent_guarded _ _)
  exact .of_same

theorem setHeld_guarded (s : State) (k : ContactId) (x : Option Nat) : Guarded s (s.setHeld k x) := .of_same

end Sys2Proof.Machine
end

section
/-! PROOFS. The swap, settling, the edges of DRIVE_EN and the resets keep the modes (R69, R72, R73, R96, R97, R102). -/

namespace Sys2Proof.Machine

-- One declaration at a time, as in the tests: declarations that wait for one another each hold a thread with its stack.
set_option Elab.async false

open Sys2Proof.Safety

/-! ### The modes -/

/-- The four invariants of the modes together. -/
def ModesHold (s : State) : Prop := LatchHolds s ∧ DriveEnHolds s ∧ EmptyHolds s ∧ AspectsFollowMode s

/-- The modes hold after an operation if they held before it. -/
def ModesStay (s t : State) : Prop := ModesHold s → ModesHold t

theorem ModesStay.trans {s t u : State} (h : ModesStay s t) (k : ModesStay t u) : ModesStay s u := fun hs => k (h hs)

theorem driveEnHolds_iff (s : State) :
    DriveEnHolds s ↔ (s.drive.driveEn = false → s.seq.mode = .dark) ∧ OutputsLow s :=
  ⟨fun h => ⟨fun hlow => (h hlow).1, fun hlow => (h hlow).2⟩, fun ⟨hmode, hlow⟩ hdrive => ⟨hmode hdrive, hlow hdrive⟩⟩

theorem Guarded.stay {s t : State} (h : Guarded s t) : ModesStay s t := by
  rintro ⟨hlatch, hdrive, hempty, haspects⟩
  rw [driveEnHolds_iff] at hdrive
  obtain ⟨hdark, hoff⟩ := hdrive
  refine ⟨h.latch hlatch, (driveEnHolds_iff t).mpr ⟨fun hlow => ?_, h.outputs hoff⟩, fun hcfg => ?_, h.aspects haspects⟩
  · exact h.dark (hdark (h.driveEn ▸ hlow))
  · exact h.dark (hempty (h.active.symm.trans hcfg))

theorem ModesStay.refl (s : State) : ModesStay s s := id

/-- An operation that is carried out or not. -/
theorem ModesStay.ite {s t u : State} {p : Prop} [Decidable p] (h : p → ModesStay s t) (k : ModesStay s u) :
    ModesStay s (if p then t else u) := by
  split
  · exact h ‹_›
  · exact k

/-- In a mode of signals the latch is not set, DRIVE_EN is high and the configuration is not EMPTY. -/
theorem ModesHold.of_signals {s : State} (h : ModesHold s) (hm : s.seq.mode.signals = true) :
    s.fallback.latch = false ∧ s.drive.driveEn = true ∧ s.cfg ≠ none := by
  obtain ⟨hlatch, hdrive, hempty, -⟩ := h
  have hdark : s.seq.mode ≠ .dark := fun e => by rw [e] at hm; cases hm
  have hflash : s.seq.mode ≠ .flash := fun e => by rw [e] at hm; cases hm
  refine ⟨?_, ?_, fun hcfg => hdark (hempty hcfg)⟩
  · rw [← Bool.not_eq_true]
    exact fun hset => (hlatch hset).elim hflash hdark
  · rw [← Bool.not_eq_false]
    exact fun hlow => hdark (hdrive hlow).1

/-- START may be entered with the latch not set, DRIVE_EN high and a configuration (R72, R97, R102, R167). -/
theorem enterStart_modes {s : State} {f : Fallback} (unused : UnusedDark s) (latch : f.latch = false)
    (driveEn : s.drive.driveEn = true) (cfg : s.cfg ≠ none) : ModesHold (s.enterStart f) := by
  unfold State.enterStart
  obtain ⟨hmode, hfallback⟩ := shift_mode s.endNormal .start { f with failRed := .none }
  have hunused : UnusedDark (s.endNormal.shift .start { f with failRed := .none }) := fun g => by
    rw [shift_groups]
    exact unused g
  have hcontrol := (endNormal_control s).trans (shift_control s.endNormal .start { f with failRed := .none })
  generalize s.endNormal.shift .start { f with failRed := .none } = t at hmode hfallback hunused hcontrol ⊢
  have hlatch : t.fallback.latch = false := by rw [hfallback, latch]
  have hdriveEn : t.drive.driveEn = true := by rw [hcontrol.drive, driveEn]
  have hcfg : t.cfg ≠ none := by rwa [State.cfg, hcontrol.mgmt]
  refine (redLossAtStart_guarded _).stay ⟨fun hset => ?_, fun hlow => ?_, fun hnone => absurd hnone hcfg, ?_⟩
  · cases hlatch.symm.trans hset
  · cases hdriveEn.symm.trans hlow
  · refine UnusedDark.aspects (s := { t.showRed with seq := _ }) (showAll_unused hunused _ _) ?_
    show t.seq.mode.signals = true
    rw [hmode]
    rfl

/-! ### The swap -/

theorem Group.swapped_kind (x : Group) (k : GroupKind) : (x.swapped k).kind = k := rfl

theorem Group.swapped_darkPlain (x : Group) : darkPlain (x.swapped .unused) = true := rfl

/-- A group that the new configuration does not use is DARK (R69). -/
theorem swapTables_unused (s : State) : UnusedDark s.swapTables := by
  intro g hkind
  have hget : s.swapTables.groups[g] = s.groups[g].swapped (cfgKind (some s.mgmt.staging) g) := by simp [State.swapTables]
  rw [hget, Group.swapped_kind] at hkind
  rw [hget, hkind, Group.swapped_darkPlain]

/-- The swap releases lockouts and switches no output. -/
theorem swapCircuits_applied (s : State) (n : CircuitId) :
    s.swapCircuits.drive.records[n].applied = s.drive.records[n].applied := by
  unfold State.swapCircuits
  dsimp only
  rw [(foldl_alarmEvents_control (fun n => s.circuits[n].cleared.2) circuitIds s).drive]
  simp

/-- The state of the swap before its mode, as far as the modes go: the outputs of before, the new configuration, unused groups DARK. -/
theorem swap_prepared (s : State) :
    let u := (s.swapTables.swapCircuits.swapCores.refreshRed).clear .configEmpty 255
    UnusedDark u ∧ u.drive.driveEn = s.drive.driveEn ∧ (OutputsLow s → OutputsLow u) ∧ u.cfg ≠ none := by
  dsimp only
  obtain ⟨-, hcircuits⟩ := swapCircuits_keeps s.swapTables
  obtain ⟨-, hcores, -, hdrive⟩ := swapCores_keeps s.swapTables.swapCircuits
  have hgroups : s.swapTables.swapCircuits.swapCores.groups = s.swapTables.groups :=
    (swapCores_groups _).trans (swapCircuits_groups _)
  have hdriveEn : s.swapTables.swapCircuits.swapCores.drive.driveEn = s.drive.driveEn := by
    rw [hdrive, (swapCircuits_settled _).driveEn]
    rfl
  have happlied (n : CircuitId) :
      s.swapTables.swapCircuits.swapCores.drive.records[n].applied = s.drive.records[n].applied := by
    rw [hdrive, swapCircuits_applied]
    rfl
  have hactive : s.swapTables.swapCircuits.swapCores.mgmt.active = some s.mgmt.staging := by
    rw [hcores, hcircuits]
    rfl
  have hred := (refreshRed_guarded s.swapTables.swapCircuits.swapCores).trans (clear_guarded _ .configEmpty 255)
  refine ⟨hred.unused ((swapTables_unused s).follows (.of_same hgroups)), hred.driveEn.trans hdriveEn,
    fun hs => hred.outputs (hs.of_applied hdriveEn happlied), ?_⟩
  rw [State.cfg, hred.active, hactive]
  exact Option.some_ne_none _

/-- The mode of the swap, case by case (R72). -/
theorem swapMode_modes {s : State} (latch : LatchHolds s) (drive : DriveEnHolds s) (cfg : s.cfg ≠ none) (unused : UnusedDark s) :
    ModesHold s.swapMode := by
  have hsignals (hm : s.seq.mode.signals = true) : s.fallback.latch = false ∧ s.drive.driveEn = true ∧ s.cfg ≠ none :=
    ModesHold.of_signals ⟨latch, drive, fun hnone => absurd hnone cfg, unused.aspects hm⟩ hm
  have hstart (hm : s.seq.mode.signals = true) : ModesHold (s.enterStart s.fallback) := by
    obtain ⟨hlatch, hdriveEn, -⟩ := hsignals hm
    exact enterStart_modes unused hlatch hdriveEn cfg
  unfold State.swapMode
  split
  next hm => exact hstart (by rw [hm]; rfl)
  next hm => exact hstart (by rw [hm]; rfl)
  next hm => exact hstart (by rw [hm]; rfl)
  next hm =>
    refine ⟨latch, drive, fun hnone => absurd hnone cfg, UnusedDark.aspects (showAll_unused unused _ _) ?_⟩
    show s.seq.mode.signals = true
    rw [hm]
    rfl
  next hm => exact ⟨latch, drive, fun hnone => absurd hnone cfg, showFlash_aspects unused hm⟩
  next hm =>
    split
    next hcause =>
      simp only [Bool.and_eq_true, Bool.not_eq_true', decide_eq_true_eq] at hcause
      obtain ⟨⟨-, hdriveEn⟩, hlatch⟩ := hcause
      exact enterStart_modes unused hlatch hdriveEn cfg
    next =>
      split
      · obtain ⟨hmode, -⟩ := shift_mode s .dark (s.causeOnly .driveOff)
        have hcontrol := shift_control s .dark (s.causeOnly .driveOff)
        refine ⟨fun _ => .inr hmode, (driveEnHolds_iff _).mpr ⟨fun _ => hmode, ?_⟩, fun _ => hmode, showDark_aspects ?_ hmode⟩
        · exact ((driveEnHolds_iff s).mp drive).2.of_drive hcontrol.drive
        · exact unused.follows (.of_same (shift_groups s .dark _))
      · exact ⟨latch, drive, fun hnone => absurd hnone cfg, showDark_aspects unused hm⟩

theorem swapEvidence_guarded (s : State) : Guarded s s.swapEvidence := by
  refine .of_follows (fun g => ?_) id
  have hget : s.swapEvidence.groups[g] = { s.groups[g] with evidence := s.evidenceOf g } := by
    simp [State.swapEvidence, State.dropEndedPairs]
  rw [hget]
  exact .of_look

theorem swapConflicts_guarded (s : State) : Guarded s s.swapConflicts :=
  foldl_guarded (fun t p => conflictDetected_guarded t [p]) _ s

theorem swap_stay (s : State) : ModesStay s s.swap := by
  rintro ⟨hlatch, hdrive, -, -⟩
  obtain ⟨⟨hmode, hfallback⟩, -, -⟩ := swap_cleared s
  obtain ⟨hunused, hdriveEn, houtputs, hcfg⟩ := swap_prepared s
  rw [driveEnHolds_iff] at hdrive
  obtain ⟨hdark, hoff⟩ := hdrive
  refine ((swapEvidence_guarded _).trans (swapConflicts_guarded _)).stay (swapMode_modes ?_ ?_ hcfg hunused)
  · rw [LatchHolds, hmode, hfallback]
    exact hlatch
  · rw [driveEnHolds_iff, hdriveEn, hmode]
    exact ⟨hdark, houtputs hoff⟩

/-! ### The transfer and settling -/

theorem activationPending_guarded (s : State) : Guarded s s.activationPending := by
  have hclearing : Guarded s { s with mgmt := { s.mgmt with activation := .pending } }.beginClearing := by
    refine .trans ?_ (beginClearing_guarded _)
    exact .of_same
  unfold State.activationPending
  dsimp only
  split
  · split
    · exact hclearing
    · exact hclearing
    all_goals exact .of_same
  · exact hclearing
  all_goals exact .of_same

theorem activate_stay (s : State) : ModesStay s s.activate := by
  unfold State.activate
  split
  · exact .refl s
  · split
    iterate 3 exact swap_stay s
    all_goals exact .ite (fun _ => swap_stay s) (.refl s)

theorem runFailRed_guarded (s : State) : Guarded s s.runFailRed := by
  unfold State.runFailRed
  split
  · exact .ite (fun _ => .of_same) (.refl s)
  · exact .refl s
  · exact .refl s

theorem settleOnce_stay (s : State) : ModesStay s s.settleOnce :=
  .trans (.trans ((completeStage_guarded s).trans (runFailRed_guarded _)).stay (activate_stay _)) (applyLost_guarded _).stay

theorem settle_stay (s : State) : ModesStay s s.settle :=
  ((settleOnce_stay s).trans (settleOnce_stay _)).trans (settleOnce_stay _)

/-! ### DRIVE_EN -/

/-- The outputs are OFF before DARK is shown (R96). -/
theorem driveFall_stay (s : State) : ModesStay s s.driveFall := by
  rintro ⟨-, -, -, haspects⟩
  unfold State.driveFall
  dsimp only
  have hunused : UnusedDark { s with drive := { s.drive with driveEn := false } } := unusedDark_of_aspects haspects
  have hguarded := (applyTargets_guarded { s with drive := { s.drive with driveEn := false } }).trans (forget_guarded _)
  have hlow := (forget_guarded _).outputs (applyTargets_low { s with drive := { s.drive with driveEn := false } })
  generalize { s with drive := { s.drive with driveEn := false } }.applyTargets.forget = t at hguarded hlow ⊢
  have hmode := (toDark_mode t t.driveOffCause).1
  refine (raise_guarded _ _ _).stay ⟨fun _ => .inr hmode, (driveEnHolds_iff _).mpr ⟨fun _ => hmode, ?_⟩, fun _ => hmode, ?_⟩
  · exact hlow.of_drive (toDark_control t _).drive
  · exact toDark_aspects (hguarded.unused hunused) _

/-- DRIVE_EN was low, and so the junction DARK: it stays there, or enters START with a configuration and the latch not set (R97). -/
theorem driveRise_stay {s : State} (low : s.drive.driveEn = false) : ModesStay s s.driveRise := by
  rintro ⟨-, hdrive, -, haspects⟩
  obtain ⟨hmode, -⟩ := hdrive low
  have hmodes : ModesHold ({ s with drive := { s.drive with driveEn := true } }.clear .driveOff 255) :=
    ⟨fun _ => .inr hmode, nofun, fun _ => hmode, haspects⟩
  have hdark : ({ s with drive := { s.drive with driveEn := true } }.clear .driveOff 255).seq.mode = .dark := hmode
  have hhigh : ({ s with drive := { s.drive with driveEn := true } }.clear .driveOff 255).drive.driveEn = true := rfl
  unfold State.driveRise
  dsimp only
  generalize { s with drive := { s.drive with driveEn := true } }.clear .driveOff 255 = t at hmodes hdark hhigh ⊢
  split
  next => exact (SameView.shift_guarded {} hdark rfl _).stay hmodes
  next hcfg =>
    split
    next => exact (SameView.shift_guarded {} hdark rfl _).stay hmodes
    next hlatch =>
      obtain ⟨-, -, -, haspects⟩ := hmodes
      refine enterStart_modes (unusedDark_of_aspects haspects) (Bool.not_eq_true _ ▸ hlatch) hhigh (fun hnone => hcfg ?_)
      rw [hnone]
      rfl

/-! ### Resets -/

/-- DARK with every group DARK, every output OFF and the latch not set. -/
structure AllOff (s : State) : Prop where
  mode : s.seq.mode = .dark
  latch : s.fallback.latch = false
  groups : ∀ g : GroupId, darkPlain s.groups[g] = true
  outputs : ∀ n : CircuitId, s.drive.records[n].applied = false

theorem AllOff.modes {s : State} (h : AllOff s) : ModesHold s := by
  refine ⟨fun _ => .inr h.mode, fun _ => ⟨h.mode, h.outputs⟩, fun _ => h.mode, fun g => ?_⟩
  exact ⟨fun _ => h.groups g, fun _ => h.groups g, fun hflash => by cases h.mode.symm.trans hflash⟩

theorem wiped_off (s : State) (phase : ResetPhase) (clock : Word) (clockSince : Nat) (last : CauseRecord) :
    AllOff (s.wiped phase clock clockSince last) where
  mode := rfl
  latch := rfl
  groups g := by simp [State.wiped, State.reset, darkPlain]
  outputs n := by simp [State.wiped, State.reset]

/-- The load changes the kinds alone of the groups (R73). -/
theorem AllOff.loaded {s : State} (h : AllOff s) (ident : BitVec 4) (bench driveEn : Bool) :
    AllOff (s.loaded ident bench driveEn) where
  mode := h.mode
  latch := h.latch
  groups g := by
    have hget : (s.loaded ident bench driveEn).groups[g] = { s.groups[g] with kind := cfgKind s.nv.config g } := by
      simp [State.loaded]
    rw [hget]
    exact h.groups g
  outputs := h.outputs

theorem resetRaises_aside (s : State) : Aside s s.resetRaises := by
  have hraise (t : State) (c : AlarmCode) : Aside t (t.raise c 255) := {}
  unfold State.resetRaises
  dsimp only
  refine (hraise s .lineDown).trans (.trans (t := if cfgEmpty (s.raise .lineDown 255).cfg then
    (s.raise .lineDown 255).raise .configEmpty 255 else s.raise .lineDown 255) ?_ ?_)
  · exact .ite (hraise _ _) (.refl _)
  · exact .ite (.refl _) (hraise _ _)

theorem AllOff.aside {s t : State} (hs : AllOff s) (h : Aside s t) : AllOff t where
  mode := by rw [h.seq, hs.mode]
  latch := by rw [h.fallback, hs.latch]
  groups := by rw [h.groups]; exact hs.groups
  outputs := by rw [h.drive]; exact hs.outputs

/-- DARK with EMPTY or with DRIVE_EN low, else START (R73). -/
theorem AllOff.resetMode {s : State} (h : AllOff s) : ModesHold s.resetMode := by
  have hcause (c : Cause) : ModesHold { s with fallback := s.causeOnly c } :=
    AllOff.modes ⟨h.mode, h.latch, h.groups, h.outputs⟩
  unfold State.resetMode
  split
  next => exact hcause _
  next hcfg =>
    split
    next hdriveEn =>
      refine enterStart_modes (fun g _ => h.groups g) h.latch hdriveEn (fun hnone => hcfg ?_)
      rw [hnone]
      rfl
    next => exact hcause _

theorem endReset_modes (s : State) (ident : BitVec 4) (bench driveEn : Bool) (clock : Word) (clockSince : Nat)
    (last : CauseRecord) : ModesHold (s.endReset ident bench driveEn clock clockSince last) :=
  (((wiped_off s _ _ _ _).loaded _ _ _).aside (resetRaises_aside _)).resetMode

end Sys2Proof.Machine
end

section
/-! PROOFS. CALL and every command keep the modes (R73, R78, R81, R96, R159). -/

namespace Sys2Proof.Machine

-- One declaration at a time, as in the tests: declarations that wait for one another each hold a thread with its stack.
set_option Elab.async false

open Sys2Proof.Safety

/-! ### CALL -/

theorem answerPlan_guarded (s : State) (n : Byte) : Guarded s (s.answerPlan n).2 := by
  unfold State.answerPlan
  split
  · exact .refl s
  · split
    · exact .refl s
    · split
      · exact .refl s
      · refine .trans ?_ (restSwitch_guarded _)
        exact .of_same

theorem answerForce_guarded (s : State) (n : Byte) : Guarded s (s.answerForce n).2 := by
  unfold State.answerForce
  split
  · exact .refl s
  · split
    · exact .refl s
    · split
      · exact .refl s
      · dsimp only
        split
        · exact actForce_guarded s _
        · exact actForce_guarded s _
        all_goals exact .of_same

theorem answerHold_guarded (s : State) : Guarded s s.answerHold.2 := by
  unfold State.answerHold
  split
  · exact .refl s
  · split
    · exact .refl s
    · exact .of_same

theorem answerRelease_guarded (s : State) : Guarded s s.answerRelease.2 := by
  unfold State.answerRelease
  split
  · exact .refl s
  · refine .trans ?_ (.ite (fun _ => stepEnd_guarded _) (.ite (fun _ => holdEnded_guarded _) (.refl _)))
    exact .of_same

/-- RUN to ALL_RED: both are modes of signals. -/
theorem answerAllRed_guarded (s : State) : Guarded s s.answerAllRed.2 := by
  unfold State.answerAllRed
  split
  next hm =>
    have hsignals : s.seq.mode.signals = true := by
      rw [hm]
      rfl
    dsimp only
    refine .trans ?_ ((clearToRed_groupsOnly _).guarded (clearToRed_follows _))
    exact .of_signals hsignals
  all_goals exact .refl s

/-- ALL_RED to RUN. -/
theorem resumeRun_guarded {s : State} (hm : s.seq.mode = .allRed) : Guarded s s.resumeRun := by
  have hsignals : s.seq.mode.signals = true := by
    rw [hm]
    rfl
  unfold State.resumeRun
  dsimp only
  refine .trans ?_ (changeStage_guarded _ _ _)
  exact .of_signals hsignals

theorem resumeSupervised_guarded (s : State) : Guarded s s.resumeSupervised := by
  refine .trans ?_ (restSwitch_guarded _)
  exact .of_same

/-- A RESUME that is not refused finds the latch not set, DRIVE_EN high and a configuration (R167). -/
theorem resumeFallback_stay {s : State} (h : s.resumeRefused = false) : ModesStay s s.resumeFallback := by
  rintro ⟨-, -, -, haspects⟩
  simp only [State.resumeRefused, Bool.or_eq_false_iff, Bool.not_eq_false'] at h
  obtain ⟨⟨⟨hlatch, -⟩, hcfg⟩, hdriveEn⟩ := h
  have hclears (t : State) : Guarded t t.clearStalls := foldl_guarded (fun u _ => clear_guarded u _ _) _ t
  refine (hclears _).stay (enterStart_modes (unusedDark_of_aspects haspects) hlatch hdriveEn (fun hnone => ?_))
  rw [hnone] at hcfg
  cases hcfg

theorem answerResume_stay (s : State) : ModesStay s s.answerResume.2 := by
  have hfallback : ModesStay s (if s.resumeRefused then (Verdict.refused, s) else (.taken, s.resumeFallback)).2 := by
    split
    next => exact .refl s
    next hrefused => exact resumeFallback_stay (Bool.not_eq_true _ ▸ hrefused)
  unfold State.answerResume
  split
  · exact .refl s
  · split
    next hm => exact (resumeRun_guarded hm).stay
    next =>
      split
      · exact .refl s
      · split
        · exact (resumeSupervised_guarded s).stay
        · exact .refl s
    next => exact .refl s
    next => exact .refl s
    next => exact hfallback
    next => exact hfallback

theorem answerFlash_guarded (s : State) : Guarded s s.answerFlash.2 := by
  unfold State.answerFlash
  split
  next hm => exact SameView.toFlash_guarded {} (by rw [hm]; decide) _
  next hm => exact SameView.toFlash_guarded {} (by rw [hm]; decide) _
  next hm => exact SameView.toFlash_guarded {} (by rw [hm]; decide) _
  next hm => exact SameView.toFlash_guarded {} (by rw [hm]; decide) _
  next => exact .refl s
  next => exact .refl s

theorem answerDark_guarded (s : State) : Guarded s s.answerDark.2 := by
  unfold State.answerDark
  split
  iterate 5 exact SameView.toDark_guarded {} _
  exact .refl s

/-- One of two answers, each with its state. -/
theorem answer_ite {P : State → Prop} {a b : Verdict × State} {p : Prop} [Decidable p] (h : P a.2) (k : P b.2) :
    P (if p then a else b).2 := by
  split
  · exact h
  · exact k

/-- Each command of the table of 11.1, then the code that names none (R112). -/
theorem callCommand_stay (s : State) (payload : List Byte) : ModesStay s (s.callCommand payload).2 := by
  unfold State.callCommand
  split
  · exact .refl s
  · refine answer_ite ?plan (answer_ite ?force (answer_ite (answerHold_guarded s).stay (answer_ite (answerRelease_guarded s).stay
      (answer_ite (answerAllRed_guarded s).stay (answer_ite (answerFlash_guarded s).stay (answer_ite (answerDark_guarded s).stay
        (answer_ite (answerResume_stay s) (answer_ite ?demand (answer_ite ?time (.refl s))))))))))
    case plan =>
      split
      · exact (answerPlan_guarded s _).stay
      · exact .refl s
    case force =>
      split
      · exact (answerForce_guarded s _).stay
      · exact .refl s
    case demand =>
      split
      · exact (raiseLines_guarded s _).stay
      · exact .refl s
    case time =>
      split
      · exact Guarded.stay .of_same
      · exact .refl s

theorem restartSupervision_guarded (s : State) : Guarded s s.restartSupervision := .ite (fun _ => .refl s) .of_same

theorem Aside.guarded {s t : State} (h : Aside s t) : Guarded s t :=
  .of_same h.groups (by rw [h.seq]) (by rw [h.fallback]) (by rw [h.drive]) (by rw [h.drive]) h.active

/-- An arriving frame keeps the modes, whatever it carries. -/
theorem frameOps_stay : FrameOps ModesStay where
  trans := .trans
  aside h := h.guarded.stay
  raiseLines s word := (raiseLines_guarded s word).stay
  callCommand := callCommand_stay
  restartSupervision s := (restartSupervision_guarded s).stay
  clearProving s n := (clearProving_guarded s n).stay
  coreRetest s n := (coreRetest_guarded s n).stay
  settle := settle_stay

/-! ### Every command -/

/-- An operation within the modes, with all that follows at the same instant. -/
theorem Guarded.settle {s t : State} (h : Guarded s t) : ModesStay s t.settle := h.stay.trans (settle_stay t)

/-- A command that acts within the modes when it is due, with all that follows. -/
theorem live_due_stay {dt : Nat} {due : State → Prop} [DecidablePred due] {f : State → State} {s : State}
    (h : ∀ u, due u → Guarded u (f u)) : EndsIn ModesStay s (live dt (fun u => if due u then (f u).settle else u) s) :=
  frameOps_stay.live_due (fun u hu => (h u hu).settle)

theorem AllOff.stay {s t : State} (h : AllOff t) : ModesStay s t := fun _ => h.modes

theorem execResetEnd_stay (dt : Nat) (ident : BitVec 4) (bench driveEn : Bool) (s : State) :
    EndsIn ModesStay s (execResetEnd dt ident bench driveEn s) := by
  have helapse : ModesStay s (elapse dt s) := frameOps_stay.aside (elapse_aside dt s)
  have hend (due : Prop) [Decidable due] (clock : Word) (clockSince : Nat) (last : CauseRecord) : ModesStay s
      (if due then (elapse dt s).endReset ident bench driveEn clock clockSince last else elapse dt s) :=
    .ite (fun _ _ => endReset_modes _ _ _ _ _ _ _) helapse
  unfold execResetEnd
  dsimp only
  split
  · exact .of_next helapse
  · exact .of_next (hend _ _ _ _)
  · exact .of_next (hend _ _ _ _)

theorem execStationResetCarriedOut_stay (dt : Nat) (s : State) : EndsIn ModesStay s (execStationResetCarriedOut dt s) :=
  frameOps_stay.live_due (fun u _ => (wiped_off u _ _ _ _).stay)

theorem imageWritten_guarded (s : State) (maskNext : Bool) : Guarded s (s.imageWritten maskNext) := .of_same

theorem execImageWriteEnd_stay (dt : Nat) (s : State) : EndsIn ModesStay s (execImageWriteEnd dt s) := by
  refine frameOps_stay.live (fun u => ?_)
  split
  · exact .refl u
  · exact .refl u
  · exact .ite (fun _ => ((imageWritten_guarded u _).trans (activationPending_guarded _)).settle) (.refl u)

theorem execContactSample_stay (dt : Nat) (levels : Byte) (s : State) : EndsIn ModesStay s (execContactSample dt levels s) := by
  refine live_due_stay (fun u _ => .trans ?_ (foldl_guarded (fun t k => sampleContact_guarded t k _) _ _))
  exact .of_same

theorem execHeldExtension_stay (dt : Nat) (k : ContactId) (s : State) : EndsIn ModesStay s (execHeldExtension dt k s) := by
  refine frameOps_stay.live (fun u => Guarded.stay (.ite (fun _ => ?_) (setHeld_guarded u k none)))
  split
  · exact (setHeld_guarded u k _).trans (extensionEvent_guarded _)
  · exact .ite (fun _ => (setHeld_guarded u k _).trans (extensionEvent_guarded _)) (.refl u)

theorem execCabinetClockTick_stay (dt : Nat) (s : State) : EndsIn ModesStay s (execCabinetClockTick dt s) := by
  have helapse : Guarded s (elapse dt s) := (elapse_aside dt s).guarded
  have htick : Guarded s (elapse dt s).tickClock := helapse.trans (.ite (fun _ => .of_same) (.refl _))
  unfold execCabinetClockTick
  dsimp only
  split
  · exact .of_next htick.stay
  · exact .of_next helapse.stay
  · exact .of_next htick.stay

theorem execSupervisionExpiry_stay (dt : Nat) (s : State) : EndsIn ModesStay s (execSupervisionExpiry dt s) := by
  refine frameOps_stay.live (fun u => ?_)
  split
  · exact .refl u
  · refine .ite (fun _ => Guarded.settle (.trans (.trans ?_ (raise_guarded _ _ _)) (afterIsolation_guarded _ _))) (.refl u)
    exact .of_same

theorem execMinExpiry_stay (dt : Nat) (s : State) : EndsIn ModesStay s (execMinExpiry dt s) :=
  live_due_stay (fun u _ => minEnded_guarded u)

theorem execExtensionDeadline_stay (dt : Nat) (s : State) : EndsIn ModesStay s (execExtensionDeadline dt s) :=
  live_due_stay (fun u _ => stepEnd_guarded u)

/-- START to RUN (R103). -/
theorem execStartRedExpiry_stay (dt : Nat) (s : State) : EndsIn ModesStay s (execStartRedExpiry dt s) := by
  refine live_due_stay (fun u hdue => .trans ?_ (changeStage_guarded _ _ _))
  have hm : u.seq.mode = .start := of_decide_eq_true (Bool.and_eq_true_iff.mp hdue).1
  have hsignals : u.seq.mode.signals = true := by
    rw [hm]
    rfl
  exact .of_signals hsignals

theorem execStall_stay (dt : Nat) (s : State) : EndsIn ModesStay s (execStall dt s) := by
  refine frameOps_stay.live (fun u => ?_)
  split
  · exact .ite (fun _ => ((raise_guarded u _ _).trans (controlled_guarded _ _ _)).settle) (.refl u)
  · exact .refl u

/-- The group waits in RED (R83). -/
theorem execRedAmberDue_stay (dt : Nat) (g : GroupId) (s : State) : EndsIn ModesStay s (execRedAmberDue dt g s) := by
  refine live_due_stay (fun u hdue => (tryRedAmber_groupsOnly u g).guarded (tryRedAmber_follows ?_))
  simp only [State.redAmberDue, Bool.and_eq_true, decide_eq_true_eq] at hdue
  obtain ⟨⟨⟨-, haspect⟩, -⟩, -⟩ := hdue
  refine idle_eq_false_of_aspect ?_ ?_
  all_goals
    rw [haspect]
    decide

theorem tryGreen_guarded (s : State) (g : GroupId) : Guarded s (s.tryGreen g) :=
  (tryGreen_groupsOnly s g).guarded (tryGreen_follows s g)

theorem execEarliestGreenDue_stay (dt : Nat) (g : GroupId) (s : State) : EndsIn ModesStay s (execEarliestGreenDue dt g s) :=
  live_due_stay (fun u _ => tryGreen_guarded u g)

theorem execRedAmberExpiry_stay (dt : Nat) (g : GroupId) (s : State) : EndsIn ModesStay s (execRedAmberExpiry dt g s) :=
  live_due_stay (fun u _ => (setGroup_guarded u g (x := { u.groups[g] with timer := none })
    (.of_cleared rfl rfl (.inl rfl) (.inr rfl) rfl rfl)).trans (tryGreen_guarded _ g))

/-- A group in AMBER or GREEN_FLASH is not idle. -/
theorem endTermination_guarded {s : State} {g : GroupId} (h : s.groups[g].aspect = .amber ∨ s.groups[g].aspect = .greenFlash) :
    Guarded s (s.endTermination g) := by
  refine (endTermination_groupsOnly s g).guarded (endTermination_follows (idle_eq_false_of_aspect ?_ ?_))
  all_goals rcases h with e | e <;> rw [e] <;> decide

theorem execAmberExpiry_stay (dt : Nat) (g : GroupId) (s : State) : EndsIn ModesStay s (execAmberExpiry dt g s) :=
  live_due_stay (fun _ hdue => endTermination_guarded (.inl (of_decide_eq_true (Bool.and_eq_true_iff.mp hdue).1)))

theorem execClearanceExpiry_stay (dt : Nat) (g : GroupId) (s : State) : EndsIn ModesStay s (execClearanceExpiry dt g s) :=
  live_due_stay (fun _ hdue => (endTermination_guarded (.inr (of_decide_eq_true (Bool.and_eq_true_iff.mp hdue).1))).trans
    ((retryAround_groupsOnly _ g).guarded (retryAround_follows _ g)))

theorem execHalfCycleMark_stay (dt : Nat) (values : Vector Nat 24) (s : State) :
    EndsIn ModesStay s (execHalfCycleMark dt values s) := by
  have hunblank (t : State) : Guarded t t.unblank := .of_same
  exact frameOps_stay.live (fun u =>
    (((countMark_applyTargets_guarded u).trans (sampleSet_guarded _ u.drive.records values)).trans (hunblank _)).settle)

theorem execFlashPhaseEdge_stay (dt : Nat) (s : State) : EndsIn ModesStay s (execFlashPhaseEdge dt s) :=
  live_due_stay (fun _ _ => .of_same)

theorem pinAt_guarded (s : State) (level : Bool) (lasted : Nat) : Guarded s (s.pinAt level lasted) := .of_same

theorem execDriveEnFall_stay (p : PinTime) (s : State) : EndsIn ModesStay s (execDriveEnFall p s) :=
  frameOps_stay.live (fun u => (pinAt_guarded u false p.held).stay.trans
    (.ite (fun _ => (driveFall_stay _).trans (settle_stay _)) (.refl _)))

theorem execDriveEnRise_stay (p : PinTime) (s : State) : EndsIn ModesStay s (execDriveEnRise p s) := by
  refine frameOps_stay.live (fun u => (pinAt_guarded u true p.held).stay.trans (.ite (fun hdue => ?_) (.refl _)))
  have hlow : (u.pinAt true p.held).drive.driveEn = false := by
    simpa using (Bool.and_eq_true_iff.mp hdue).1
  exact (driveRise_stay hlow).trans (settle_stay _)

theorem execMainsLost_stay (dt : Nat) (s : State) : EndsIn ModesStay s (execMainsLost dt s) := by
  refine frameOps_stay.live (fun u => ?_)
  split
  · exact .ite (fun _ => (loseMains_guarded u).settle) (.refl u)
  · exact .refl u

theorem execProbeRequest_stay (dt : Nat) (n : CircuitId) (s : State) : EndsIn ModesStay s (execProbeRequest dt n s) :=
  frameOps_stay.live_due (fun _ _ => Guarded.stay .of_same)

theorem execProbeReturn_stay (dt : Nat) (n : CircuitId) (amplitude width : Nat) (s : State) :
    EndsIn ModesStay s (execProbeReturn dt n amplitude width s) := by
  refine frameOps_stay.live (fun u => ?_)
  split
  · exact .refl u
  · exact .ite (fun _ => (moveCore_guarded u n _).settle) (.refl u)

theorem execLeakageTestStart_stay (dt : Nat) (s : State) : EndsIn ModesStay s (execLeakageTestStart dt s) := by
  refine frameOps_stay.live (fun u => ?_)
  split
  · exact Guarded.stay .of_same
  · exact .refl u

theorem execLeakageResult_stay (dt : Nat) (current : Nat) (s : State) : EndsIn ModesStay s (execLeakageResult dt current s) := by
  refine frameOps_stay.live (fun u => ?_)
  split
  · exact .refl u
  · refine .ite (fun _ => Guarded.stay (.trans ?_ (moveCore_guarded _ _ _))) (.refl u)
    exact .of_same

/-- FAIL_RED to FLASH (R165). -/
theorem execFailRedExpiry_stay (dt : Nat) (s : State) : EndsIn ModesStay s (execFailRedExpiry dt s) := by
  refine live_due_stay (fun u hdue => SameView.toFlash_guarded {} ?_ _)
  have hm : u.seq.mode = .failRed := of_decide_eq_true (Bool.and_eq_true_iff.mp hdue).1
  rw [hm]
  decide

/-- Every command, in every state. -/
theorem exec_stay (c : Instr) (s : State) : EndsIn ModesStay s (exec c s) := by
  cases hc : onJunction c with
  | false => exact frameOps_stay.exec hc s
  | true =>
    cases c with
    | powerOnReset p => exact .of_next (wiped_off _ _ _ _ _).stay
    | resetEnd dt ident bench driveEn => exact execResetEnd_stay dt ident bench driveEn s
    | stationResetCarriedOut dt => exact execStationResetCarriedOut_stay dt s
    | imageWriteEnd dt => exact execImageWriteEnd_stay dt s
    | contactSample dt levels => exact execContactSample_stay dt levels s
    | heldExtension dt k => exact execHeldExtension_stay dt k s
    | cabinetClockTick dt => exact execCabinetClockTick_stay dt s
    | supervisionExpiry dt => exact execSupervisionExpiry_stay dt s
    | startRedExpiry dt => exact execStartRedExpiry_stay dt s
    | minExpiry dt => exact execMinExpiry_stay dt s
    | extensionDeadline dt => exact execExtensionDeadline_stay dt s
    | stall dt => exact execStall_stay dt s
    | redAmberDue dt g => exact execRedAmberDue_stay dt g s
    | earliestGreenDue dt g => exact execEarliestGreenDue_stay dt g s
    | redAmberExpiry dt g => exact execRedAmberExpiry_stay dt g s
    | amberExpiry dt g => exact execAmberExpiry_stay dt g s
    | clearanceExpiry dt g => exact execClearanceExpiry_stay dt g s
    | halfCycleMark dt values => exact execHalfCycleMark_stay dt values s
    | flashPhaseEdge dt => exact execFlashPhaseEdge_stay dt s
    | driveEnFall p => exact execDriveEnFall_stay p s
    | driveEnRise p => exact execDriveEnRise_stay p s
    | mainsLost dt => exact execMainsLost_stay dt s
    | probeRequest dt n => exact execProbeRequest_stay dt n s
    | probeReturn dt n amplitude width => exact execProbeReturn_stay dt n amplitude width s
    | leakageTestStart dt => exact execLeakageTestStart_stay dt s
    | leakageResult dt current => exact execLeakageResult_stay dt current s
    | failRedExpiry dt => exact execFailRedExpiry_stay dt s
    | keepAliveMark | markEnd | validMark | invertedMark | startMarker | invertedStartMarker | dataByte | invalidLineSymbol
    | discardingSilence | seekingTimeout | silenceWatchdog | endMarker | transmissionStart | transmissionEnd | insertionAttempt
    | echo | peek | load | commit | retire | clearCounters | stageFlagClear | mgmtStatusClear | clearProving | coreRetest
    | stationReset | protection | maskWriteEnd | callDemand | plan | force | hold | release | allRed | resume | flash | dark
    | time => cases hc

/-- Taking a command off the queue touches no mode. -/
theorem step_stay {s t : State} (h : step s = .next t) : ModesStay s t := by
  unfold step at h
  split at h
  · cases h
    exact .refl s
  · rename_i c rest _
    exact ModesStay.trans (t := { s with pending := rest }) (Guarded.stay .of_same) (exec_stay c _ t h)

/-- Settles O57: each command is made of operations that stay within the modes (`Guarded`), of the swap, of the edges of DRIVE_EN, of a
RESUME that is not refused and of the resets, which lead from one state of the modes to another. -/
theorem modesKept : Obligations.ModesKept := fun _ _ hs h => step_stay h hs

end Sys2Proof.Machine
end
